-- ==== Sys2Proof/Word.lean ====
section
/-! DEFINITION. The two machine word types (spec/00_scope.md R7: bytes are `u8`; durations, time stamps and
counters are `u32`, spec/10_state.md R11). -/

namespace Sys2Proof

/-- A byte, `u8` (R7). Bit 7 is the most significant. -/
abbrev Byte := BitVec 8

/-- A `u32` value (R11): a duration in microseconds, a tick count, a time stamp or a counter. -/
abbrev Word := BitVec 32

/-- A character of a display text, by its 8-bit code (notes/assumptions/18.md, DESIGN CHOICE). -/
abbrev Ch := BitVec 8

/-- The code of a character literal. -/
def ch (c : Char) : Ch := BitVec.ofNat 8 c.toNat

end Sys2Proof
end

