-- ==== Sys2Proof/Config.lean ====
section
/-! DEFINITION. The configuration record of spec/00_scope.md R5, one field per parameter, its derived sizes, the one
free value of the model (the uninterpreted checksum function) and the spec's reference set REF_HP
(spec/92_eei_decisions.md D66). -/

namespace Sys2Proof

/-- The protocol variant (R5). -/
inductive Variant where
  | generic
  | heatPump
deriving DecidableEq, Repr

/-- A ToleranceWindow, `{nominal, lo, hi}` in microseconds (spec/40_tolerance_descriptor.md R52). -/
structure Window where
  nominal : Word
  lo      : Word
  hi      : Word
deriving DecidableEq, Repr

/-- The malformed-frame recovery policy (R5, D29). -/
inductive MalformedPolicy where
  | abort
  | restartCount
deriving DecidableEq, Repr

/-- The five operating modes (spec/30_encoding.md R45). -/
inductive Mode where
  | auto
  | cool
  | dry
  | heat
  | fan
deriving DecidableEq, Repr

/-- The four fan speeds (R45). -/
inductive Fan where
  | auto
  | low
  | medium
  | high
deriving DecidableEq, Repr

/-- The follow-me lifecycle states (R45). -/
inductive FmState where
  | start
  | update
  | stop
deriving DecidableEq, Repr

/-- The instruction kinds of a heat-pump message (R43). -/
inductive Kind where
  | command
  | option
  | followMe
deriving DecidableEq, Repr

/-- A field of a sample: `(start, width)` in sample bit numbering (R41). -/
structure Field where
  start : Nat
  width : Nat
deriving DecidableEq, Repr

/-- `FIELDMAP` (R5, R44): the bit range of each field of payload bytes 1..PB-1. No accessor reads `status` and `time`. -/
structure FieldMap where
  power   : Field
  sleep   : Field
  mode    : Field
  fan     : Field
  temp    : Field
  status  : Field
  time    : Field
  option  : Field
  fmState : Field
  fmTemp  : Field
deriving DecidableEq, Repr

/-- `MODE_CODE` (R5, R45): the field code of each mode. -/
structure ModeCode where
  auto : Nat
  cool : Nat
  dry  : Nat
  heat : Nat
  fan  : Nat
deriving DecidableEq, Repr

/-- `FAN_CODE` (R5, R45). -/
structure FanCode where
  auto   : Nat
  low    : Nat
  medium : Nat
  high   : Nat
deriving DecidableEq, Repr

/-- `FMSTATE_CODE` (R5, R45). -/
structure FmStateCode where
  start  : Nat
  update : Nat
  stop   : Nat
deriving DecidableEq, Repr

/-- Which function `CHECKSUM` is (R5, R74). `ref` is `CHECKSUM_REF`; `other n` is the uninterpreted function number `n`.
A configuration record is plain data, so it names the function (notes/assumptions/4.md). -/
inductive ChecksumChoice where
  | ref
  | other (n : Nat)
deriving DecidableEq, Repr

/-- The configuration record of R5. -/
structure Configuration where
  variant         : Variant
  epsNum          : Nat
  epsDen          : Nat
  sampleCount     : Nat
  bitCount        : Nat
  syncCount       : Nat
  syncWindows     : List Window
  separatorWindow : Window
  zeroWindow      : Window
  oneWindow       : Window
  breakWindow     : Window
  ringCap         : Nat
  ticksPerUs      : Nat
  malformedPolicy : MalformedPolicy
  hasupdAtomic    : Bool
  markerMask      : Byte
  markerValue     : Byte
  kindMask        : Byte
  kindCommand     : Byte
  kindOption      : Byte
  kindFollowMe    : Byte
  checksum        : ChecksumChoice
  fieldMap        : FieldMap
  modeCode        : ModeCode
  fanCode         : FanCode
  fmStateCode     : FmStateCode
  tempOffset      : Int
  tempMin         : Int
  tempMax         : Int
  fmTempOffset    : Int
  fmTempMin       : Int
  fmTempMax       : Int
  optionSet       : List Byte
  blankCode       : Byte
  segTable        : List (Byte × List Ch)
  labels          : List (List Ch)
  nSelect         : Nat
  nAdvance        : Nat
  optSelect       : Byte
  optAdvance      : Byte
  debounce        : Word
  scanInterval    : Option Word
  cooldown        : Word
deriving DecidableEq, Repr

/-- FREE VALUE (notes/assumptions/4.md). The checksum functions a configuration may name by number: R74 lets a model
assume of `CHECKSUM` only that it is a total function of the payload bytes. -/
opaque Config.checksum : Nat → List Byte → Byte

/-- `BRK` (R5): 1 if the protocol has a break window, else 0. -/
def Configuration.brk (c : Configuration) : Nat := if c.breakWindow.nominal.toNat > 0 then 1 else 0

/-- `F` (R5): the length of a sample-frame in pulses. -/
def Configuration.frameLen (c : Configuration) : Nat := c.syncCount + 2 * (c.bitCount + c.brk)

/-- `N` (R5): the length of the pulse table. -/
def Configuration.tableLen (c : Configuration) : Nat := c.sampleCount * c.frameLen

/-- `L` (R5, R12): the length of a message buffer in bytes, `ceil(sampleCount·bitCount/8)`. -/
def Configuration.msgLen (c : Configuration) : Nat := (c.sampleCount * c.bitCount + 7) / 8

/-- `T` (R5): the completion threshold of the receiver. -/
def Configuration.threshold (c : Configuration) : Nat := c.bitCount * 2 * c.sampleCount + c.syncCount

/-- `PB` (R5): the payload bytes of a heat-pump sample. -/
def Configuration.payloadBytes (c : Configuration) : Nat := c.bitCount / 8 - 1

/-- `Q` (spec/45_scanner.md): the length of the scanner's command queue. -/
def Configuration.queueLen (c : Configuration) : Nat := c.nSelect + c.nAdvance

/-- `REF_HP` with the REF codec, display and scanner sets (spec/92_eei_decisions.md section 2, D66): numbers of the
spec's own, for test vectors and for the state after reset (notes/assumptions/3.md, DESIGN CHOICE). -/
def Configuration.refHp : Configuration where
  variant         := .heatPump
  epsNum          := 1
  epsDen          := 4
  sampleCount     := 2
  bitCount        := 48
  syncCount       := 2
  syncWindows     := [⟨4400, 3300, 5500⟩, ⟨4400, 3300, 5500⟩]
  separatorWindow := ⟨560, 420, 700⟩
  zeroWindow      := ⟨560, 420, 700⟩
  oneWindow       := ⟨1680, 1260, 2100⟩
  breakWindow     := ⟨5220, 3915, 6525⟩
  ringCap         := 256
  ticksPerUs      := 5
  malformedPolicy := .abort
  hasupdAtomic    := true
  markerMask      := 0xF0
  markerValue     := 0xA0
  kindMask        := 0x0F
  kindCommand     := 1
  kindOption      := 2
  kindFollowMe    := 4
  checksum        := .ref
  fieldMap        := { power := ⟨8, 1⟩, sleep := ⟨9, 1⟩, mode := ⟨10, 3⟩, fan := ⟨13, 2⟩, temp := ⟨19, 5⟩,
                       status := ⟨24, 8⟩, time := ⟨32, 8⟩, option := ⟨8, 8⟩, fmState := ⟨24, 2⟩, fmTemp := ⟨32, 8⟩ }
  modeCode        := ⟨0, 1, 2, 3, 4⟩
  fanCode         := ⟨0, 1, 2, 3⟩
  fmStateCode     := ⟨1, 2, 3⟩
  tempOffset      := 17
  tempMin         := 17
  tempMax         := 30
  fmTempOffset    := 0
  fmTempMin       := 0
  fmTempMax       := 50
  optionSet       := [0x01, 0x02, 0x03, 0x04, 0x05]
  blankCode       := 0x00
  segTable        :=
    [(0xFC, [ch '0']), (0x60, [ch '1']), (0xDA, [ch '2']), (0xF2, [ch '3']), (0x66, [ch '4']), (0xB6, [ch '5']),
     (0xBE, [ch '6']), (0xE0, [ch '7']), (0xFE, [ch '8']), (0xF6, [ch '9']), (0xEE, [ch 'A']), (0x3E, [ch 'B']),
     (0x9C, [ch 'C']), (0x7A, [ch 'D']), (0x9E, [ch 'E']), (0x8E, [ch 'F']), (0x02, [ch '-']),
     (0x62, [ch '-', ch '1']), (0x1E, [ch 'T']), (0xCE, [ch 'P']), (0x1C, [ch 'L']), (0x6E, [ch 'H']),
     (0x00, [ch ' '])]
  labels          :=
    [[ch 'T', ch '1'], [ch 'T', ch '2'], [ch 'T', ch '3'], [ch 'T', ch '4'], [ch 'T', ch '5'], [ch 'T', ch '6'],
     [ch 'T', ch '7'], [ch 'T', ch '8'], [ch 'T', ch '9'], [ch 'T', ch 'A'], [ch 'T', ch 'B'], [ch 'T', ch 'C'],
     [ch 'T', ch 'D'], [ch 'T', ch 'E'], [ch 'T', ch 'F'], [ch 'P', ch '0'], [ch 'P', ch '1'], [ch 'P', ch '2'],
     [ch 'P', ch '3'], [ch 'P', ch '4'], [ch 'P', ch '5'], [ch 'P', ch '6'], [ch 'P', ch '7'], [ch 'P', ch '8'],
     [ch 'P', ch '9'], [ch 'L', ch '0'], [ch 'L', ch '1']]
  nSelect         := 2
  nAdvance        := 1
  optSelect       := 0x02
  optAdvance      := 0x03
  debounce        := 300
  scanInterval    := none
  cooldown        := 60000

end Sys2Proof
end

