-- ==== Sys2Proof/Machine/Bits.lean ====
section
/-! DEFINITION. Bits, fields and their places: the message bit layout of spec/30_encoding.md R40 and R41, the bit
reversal of spec/00_scope.md R7. -/

namespace Sys2Proof.Machine

/-- `rev8` (R7): the eight bits of a byte reversed. -/
def rev8 (b : Byte) : Byte := b.reverse

/-- The mask of global bit `g` in its byte (R40). -/
def bitMask (g : Nat) : Byte := 0x80#8 >>> (g % 8)

/-- `BitPos(s, b)` (R40): byte offset and mask of bit `b` of sample `s`. -/
def bitPos (bitCount s b : Nat) : Nat × Byte := ((s * bitCount + b) / 8, bitMask (s * bitCount + b))

/-- Global bit `g` of a buffer (R26, R40). A byte past the end of the buffer reads 0. -/
def getBitG (buf : List Byte) (g : Nat) : Bool :=
  decide (buf.getD (g / 8) 0 &&& bitMask g ≠ 0)

/-- `SetBitG` (spec/42_transceiver_rx.md R70): global bit `g` set to 1 by ORing its mask into its byte. -/
def setBitG (buf : List Byte) (g : Nat) : List Byte :=
  buf.modify (g / 8) fun b => b ||| bitMask g

/-- Global bit `g` written to `v`, every other bit kept. -/
def putBitG (buf : List Byte) (g : Nat) (v : Bool) : List Byte :=
  buf.modify (g / 8) fun b =>
    if v then b ||| bitMask g else b &&& ~~~(bitMask g)

/-- `GetBit(buf, s, b)` (R40). -/
def getBit (bitCount : Nat) (buf : List Byte) (s b : Nat) : Bool := getBitG buf (s * bitCount + b)

/-- A run of `width` bits from global bit `g`, the first bit most significant (R41). -/
def getBitsG (buf : List Byte) (g : Nat) : Nat → Nat
  | 0 => 0
  | w + 1 => (getBitG buf g).toNat * 2 ^ w + getBitsG buf (g + 1) w

/-- The low `width` bits of `v` written to the run of `width` bits from global bit `g`, most significant first (R41). -/
def putBitsG (buf : List Byte) (g : Nat) (v : Nat) : Nat → List Byte
  | 0 => buf
  | w + 1 => putBitsG (putBitG buf g (v.testBit w)) (g + 1) v w

/-- `GetField(buf, 0, start, width)` (R41): every accessor works on sample 0 (spec/43_codec.md R80). -/
def getField (buf : List Byte) (f : Field) : Nat := getBitsG buf f.start f.width

/-- `PutField(buf, 0, start, width, v)` (R41). -/
def putField (buf : List Byte) (f : Field) (v : Nat) : List Byte := putBitsG buf f.start v f.width

/-- A buffer with the unused low bits of its last byte written 0 (spec/10_state.md R12). `n` is the number of used
bits, `sampleCount·bitCount`. -/
def clearPadding (n : Nat) (buf : List Byte) : List Byte :=
  if n % 8 = 0 then buf else buf.modify (n / 8) fun b => b &&& (0xFF#8 <<< (8 - n % 8))

end Sys2Proof.Machine
end

