-- ==== Sys2Proof/Machine/Message.lean ====
section
/-! DEFINITION. The heat-pump message: samples, checksum, `Build`, `Check` and the instruction kind
(spec/30_encoding.md R42, R43; spec/43_codec.md R72 to R75). -/

namespace Sys2Proof.Machine

/-- `CHECKSUM_REF` (R74): the one's complement of the modulo-256 sum of the bit-reversed payload bytes. -/
def checksumRef (p : List Byte) : Byte := 0xFF#8 - (p.map rev8).foldl (· + ·) 0

/-- `CHECKSUM` (R74) as the configuration names it. -/
def checksum (c : Configuration) (p : List Byte) : Byte :=
  match c.checksum with
  | .ref => checksumRef p
  | .other n => Config.checksum n p

/-- `~P`: every byte complemented (R72). -/
def complement (p : List Byte) : List Byte := p.map (~~~ ·)

/-- `Pay(b, s)` (R72): the payload bytes of sample `s`. -/
def pay (c : Configuration) (b : List Byte) (s : Nat) : List Byte :=
  (b.drop (s * (c.payloadBytes + 1))).take c.payloadBytes

/-- `Cs(b, s)` (R72): the checksum byte of sample `s`. -/
def cs (c : Configuration) (b : List Byte) (s : Nat) : Byte :=
  b.getD (s * (c.payloadBytes + 1) + c.payloadBytes) 0

/-- `Build(P)` (R72): the two-sample buffer of a canonical payload. -/
def build (c : Configuration) (p : List Byte) : List Byte :=
  p ++ [checksum c p] ++ complement p ++ [checksum c (complement p)]

/-- The outcome of `Check` (R75). -/
inductive CheckResult where
  | good
  | invalidMarker
  | checksumMismatch
deriving DecidableEq, Repr

/-- The payload of sample `s` uncomplemented: sample 0 as it stands, sample 1 complemented (R75, R76). -/
def plainPayload (c : Configuration) (b : List Byte) (s : Nat) : List Byte :=
  if s = 0 then pay c b 0 else complement (pay c b s)

/-- `Check(b, s)` (R75): the marker, then the checksum over the sample's bytes as they stand. -/
def check (c : Configuration) (b : List Byte) (s : Nat) : CheckResult :=
  if (plainPayload c b s).headD 0 &&& c.markerMask ≠ c.markerValue then .invalidMarker
  else if checksum c (pay c b s) ≠ cs c b s then .checksumMismatch
  else .good

/-- `Kind(P)` as a code: `P[0] & KIND_MASK` (R72). -/
def kindCode (c : Configuration) (p : List Byte) : Byte := p.headD 0 &&& c.kindMask

/-- The kind a code stands for (R43), if any: the first of Command, Option, FollowMe that has it, should a configuration
give two kinds one code (notes/assumptions/8.md, DEDUCED). -/
def kindOf (c : Configuration) (p : List Byte) : Option Kind :=
  if kindCode c p = c.kindCommand then some .command
  else if kindCode c p = c.kindOption then some .option
  else if kindCode c p = c.kindFollowMe then some .followMe
  else none

/-- The code of a kind in the instruction byte (R43). -/
def kindValue (c : Configuration) : Kind → Byte
  | .command => c.kindCommand
  | .option => c.kindOption
  | .followMe => c.kindFollowMe

/-- The payload's kind code is that of one of the kinds (R80, R100). -/
def isOfKind (c : Configuration) (p : List Byte) (ks : List Kind) : Bool :=
  ks.any fun k => kindCode c p == kindValue c k

/-- The reset message (R73): a Command whose every field code is 0. Under the generic variant the codec has no message
structure and its buffer holds zeros (notes/assumptions/6.md). -/
def resetMessage (c : Configuration) : List Byte :=
  match c.variant with
  | .heatPump => build c ((c.markerValue ||| c.kindCommand) :: List.replicate (c.payloadBytes - 1) 0)
  | .generic => List.replicate c.msgLen 0

/-- The kind of a message on the wire, read from byte 0 of sample 0 (R43, opcode_table.json rows MSG.*). Only the
heat-pump variant has kinds. -/
def wireKind (c : Configuration) (buf : List Byte) : Option Kind :=
  if c.variant = .heatPump ∧ buf.headD 0 &&& c.markerMask = c.markerValue then kindOf c buf else none

end Sys2Proof.Machine
end

