-- ==== Sys2Proof/Syntax.lean ====
section
/-! DEFINITION. The operations of the block: one constructor per row of spec/opcode_table.json (spec/30_encoding.md
R36, R37, R43), and the requests by which host and environment offer them. -/

namespace Sys2Proof

/-- An operation with its operands. `now` operands are readings of a 32-bit counter (R9, R37); a buffer operand has `L`
bytes and a text at most four characters (checked in WellFormed.lean). An enum operand is `none` when the port carries
something that is no value of the enum (spec/43_codec.md R81; notes/assumptions/16.md). -/
inductive Instr where
  -- SYS
  | nop
  | reset (config : Configuration)
  | status (sel : Byte)
  | twmk (nominal epsNum epsDen : Word)
  | twin (w : Window) (d : Word)
  -- TRX
  | send (m : List Byte)
  | sendW (m : List Byte)
  | listen
  | listenstop
  | chkmsg
  -- CODEC
  | isvalid (b : List Byte) (now : Word)
  | isvalidS (b : List Byte) (now : Word)
  | getmsg
  | optcmd (o : Byte)
  | fmcmd (prev : List Byte) (st : Option FmState) (t : Int)
  | getseq
  | getts
  | getkind
  | getPower
  | setPower (v : Bool)
  | getMode
  | setMode (m : Option Mode)
  | getFan
  | setFan (f : Option Fan)
  | getSleep
  | setSleep (v : Bool)
  | getTemp
  | setTemp (t : Int)
  | getOption
  | setOption (o : Byte)
  | getFmtemp
  | setFmtemp (t : Int)
  | getFmstate
  | setFmstate (st : Option FmState)
  -- DISP
  | dlisten
  | dlistenstop
  | hasupd
  | ascii
  | a2i (text : List Ch)
  -- SCAN
  | scanstart (now : Word)
  | scantick (now : Word)
  | propsnap
  -- hardware events
  | rxedge (now : Word)
  | txcmp
  | dclk (data : Bool)
  | dstb
  -- wire messages: the buffer on the wire and the counter value at its first transition
  | msgCommand (buf : List Byte) (now : Word)
  | msgOption (buf : List Byte) (now : Word)
  | msgFollowme (buf : List Byte) (now : Word)
deriving DecidableEq, Repr

/-- One request offered to the block (notes/assumptions/1.md): a command on the host command port (R35), an event
(R36), a message on the infrared wire (R38), or a turn of the host's own thread, which advances a HASUPD that is split
into sub-steps (spec/20_memory.md R32). The bytes are in the order of notes/assumptions/2.md. -/
inductive Request where
  | command (bytes : List Byte)
  | event (bytes : List Byte)
  | wire (bytes : List Byte)
  | turn
deriving DecidableEq, Repr

end Sys2Proof
end

