-- ==== Sys2Proof/WellFormed.lean ====
section
/-! DEFINITION. Which terms of Instr are operations the ports can carry: operand shapes (spec/30_encoding.md R37, R43;
spec/20_memory.md R27) and the ranges of the model's packing (notes/assumptions/2.md). -/

namespace Sys2Proof

/-- A signed operand fits the 32 bits it is packed in. -/
def fitsInt32 (t : Int) : Bool := decide (-2 ^ 31 ≤ t ∧ t < 2 ^ 31)

/-- A number fits the 32 bits it is packed in. -/
def fitsU32 (n : Nat) : Bool := decide (n < 2 ^ 32)

/-- A field's numbers fit. -/
def Field.encodable (f : Field) : Bool := fitsU32 f.start && fitsU32 f.width

/-- A field map's numbers fit. -/
def FieldMap.encodable (m : FieldMap) : Bool :=
  [m.power, m.sleep, m.mode, m.fan, m.temp, m.status, m.time, m.option, m.fmState, m.fmTemp].all Field.encodable

/-- The number that names the checksum function fits. -/
def ChecksumChoice.encodable : ChecksumChoice → Bool
  | .ref => true
  | .other n => fitsU32 (n + 1)

/-- A configuration record the command port can carry (notes/assumptions/2.md): every count, code and temperature fits
32 bits. It need not be a well-formed configuration (R6): RESET judges that. -/
def Configuration.encodable (c : Configuration) : Bool :=
  [c.epsNum, c.epsDen, c.sampleCount, c.bitCount, c.syncCount, c.ringCap, c.ticksPerUs,
   c.modeCode.auto, c.modeCode.cool, c.modeCode.dry, c.modeCode.heat, c.modeCode.fan,
   c.fanCode.auto, c.fanCode.low, c.fanCode.medium, c.fanCode.high,
   c.fmStateCode.start, c.fmStateCode.update, c.fmStateCode.stop, c.nSelect, c.nAdvance,
   c.syncWindows.length, c.optionSet.length, c.segTable.length, c.labels.length].all fitsU32 &&
  [c.tempOffset, c.tempMin, c.tempMax, c.fmTempOffset, c.fmTempMin, c.fmTempMax].all fitsInt32 &&
  c.fieldMap.encodable && c.checksum.encodable &&
  c.segTable.all (fun e => fitsU32 e.2.length) && c.labels.all (fun l => fitsU32 l.length)

/-- A buffer operand has exactly `L` bytes (R12, R27). -/
def isBuffer (c : Configuration) (b : List Byte) : Bool := decide (b.length = c.msgLen)

/-- The operand shapes of R37, for a block whose configuration is `c`. -/
def Instr.wellFormed (c : Configuration) : Instr → Bool
  | .nop => true
  | .reset config => config.encodable
  | .status _ => true
  | .twmk _ _ _ => true
  | .twin _ _ => true
  | .send m => isBuffer c m
  | .sendW m => isBuffer c m
  | .listen => true
  | .listenstop => true
  | .chkmsg => true
  | .isvalid b _ => isBuffer c b
  | .isvalidS b _ => isBuffer c b
  | .getmsg => true
  | .optcmd _ => true
  | .fmcmd prev _ t => isBuffer c prev && fitsInt32 t
  | .getseq => true
  | .getts => true
  | .getkind => true
  | .getPower => true
  | .setPower _ => true
  | .getMode => true
  | .setMode _ => true
  | .getFan => true
  | .setFan _ => true
  | .getSleep => true
  | .setSleep _ => true
  | .getTemp => true
  | .setTemp t => fitsInt32 t
  | .getOption => true
  | .setOption _ => true
  | .getFmtemp => true
  | .setFmtemp t => fitsInt32 t
  | .getFmstate => true
  | .setFmstate _ => true
  | .dlisten => true
  | .dlistenstop => true
  | .hasupd => true
  | .ascii => true
  | .a2i text => decide (text.length ≤ 4)
  | .scanstart _ => true
  | .scantick _ => true
  | .propsnap => true
  | .rxedge _ => true
  | .txcmp => true
  | .dclk _ => true
  | .dstb => true
  | .msgCommand buf _ => isBuffer c buf && Machine.wireKind c buf == some .command
  | .msgOption buf _ => isBuffer c buf && Machine.wireKind c buf == some .option
  | .msgFollowme buf _ => isBuffer c buf && Machine.wireKind c buf == some .followMe

end Sys2Proof
end

