-- ==== Sys2Proof/Decode.lean ====
section
/-! DEFINITION. The decoder of the three ports (spec/30_encoding.md R35, R36, R37, R43), total on any bytes, and the
encoder. The operation and event codes are the spec's; the packing of operand bundles into bytes is the model's
(notes/assumptions/2.md, DESIGN CHOICE): every number least significant byte first, lists behind a 32-bit count. -/

namespace Sys2Proof

/-! ### Reading an operand bundle -/

/-- A reader of one operand: the value and the bytes after it, or none when the bytes run out. -/
abbrev Reader (α : Type) := List Byte → Option (α × List Byte)

/-- One byte. -/
def readByte : Reader Byte
  | [] => none
  | b :: s => some (b, s)

/-- A `u32`, least significant byte first. -/
def readWord : Reader Word
  | b0 :: b1 :: b2 :: b3 :: s =>
    some (BitVec.ofNat 32 (b0.toNat + 2 ^ 8 * b1.toNat + 2 ^ 16 * b2.toNat + 2 ^ 24 * b3.toNat), s)
  | _ => none

/-- A natural number in 32 bits. -/
def readNat : Reader Nat := fun s => do
  let (w, s) ← readWord s
  some (w.toNat, s)

/-- A signed number in 32 bits, two's complement. -/
def readInt : Reader Int := fun s => do
  let (w, s) ← readWord s
  some (w.toInt, s)

/-- A one-bit operand: bit 0 of a byte. -/
def readBool : Reader Bool := fun s => do
  let (b, s) ← readByte s
  some (b.getLsbD 0, s)

/-- A buffer of `n` bytes (R27: the operand type fixes the length). -/
def readBuffer (n : Nat) : Reader (List Byte) := fun s =>
  if s.length < n then none else some (s.take n, s.drop n)

/-- A window operand (R37: three `u32`). -/
def readWindow : Reader Window := fun s => do
  let (nominal, s) ← readWord s
  let (lo, s) ← readWord s
  let (hi, s) ← readWord s
  some (⟨nominal, lo, hi⟩, s)

/-- `n` operands of one shape. -/
def readTimes {α : Type} (r : Reader α) : Nat → Reader (List α)
  | 0 => fun s => some ([], s)
  | n + 1 => fun s => do
    let (a, s) ← r s
    let (as, s) ← readTimes r n s
    some (a :: as, s)

/-- A list behind its 32-bit count. -/
def readList {α : Type} (r : Reader α) : Reader (List α) := fun s => do
  let (n, s) ← readNat s
  readTimes r n s

/-- A text operand (R37: 0 to 4 characters): a count byte and four character bytes. DESIGN CHOICE
(notes/assumptions/2.md): a count above 4, which no text of R37 has, reads as 4, and the character bytes past the count
are not looked at. -/
def readText : Reader (List Ch) := fun s => do
  let (n, s) ← readByte s
  let (cs, s) ← readBuffer 4 s
  some (cs.take n.toNat, s)

/-- A Mode operand: 0 Auto, 1 Cool, 2 Dry, 3 Heat, 4 Fan; any other byte is no value of the enum (R81). -/
def readMode : Reader (Option Mode) := fun s => do
  let (b, s) ← readByte s
  some ([Mode.auto, .cool, .dry, .heat, .fan][b.toNat]?, s)

/-- A Fan operand: 0 Auto, 1 Low, 2 Medium, 3 High. -/
def readFan : Reader (Option Fan) := fun s => do
  let (b, s) ← readByte s
  some ([Fan.auto, .low, .medium, .high][b.toNat]?, s)

/-- A FmState operand: 0 Start, 1 Update, 2 Stop. -/
def readFmState : Reader (Option FmState) := fun s => do
  let (b, s) ← readByte s
  some ([FmState.start, .update, .stop][b.toNat]?, s)

/-- The checksum function's name: 0 is `CHECKSUM_REF`, `n + 1` is function number `n`. -/
def readChecksum : Reader ChecksumChoice := fun s => do
  let (n, s) ← readNat s
  some (match n with
    | 0 => .ref
    | n + 1 => .other n, s)

/-- A field. -/
def readField : Reader Field := fun s => do
  let (start, s) ← readNat s
  let (width, s) ← readNat s
  some (⟨start, width⟩, s)

/-- `FIELDMAP`. -/
def readFieldMap : Reader FieldMap := fun s => do
  let (power, s) ← readField s
  let (sleep, s) ← readField s
  let (mode, s) ← readField s
  let (fan, s) ← readField s
  let (temp, s) ← readField s
  let (status, s) ← readField s
  let (time, s) ← readField s
  let (option, s) ← readField s
  let (fmState, s) ← readField s
  let (fmTemp, s) ← readField s
  some ({ power, sleep, mode, fan, temp, status, time, option, fmState, fmTemp }, s)

/-- `MODE_CODE`. -/
def readModeCode : Reader ModeCode := fun s => do
  let (auto, s) ← readNat s
  let (cool, s) ← readNat s
  let (dry, s) ← readNat s
  let (heat, s) ← readNat s
  let (fan, s) ← readNat s
  some (⟨auto, cool, dry, heat, fan⟩, s)

/-- `FAN_CODE`. -/
def readFanCode : Reader FanCode := fun s => do
  let (auto, s) ← readNat s
  let (low, s) ← readNat s
  let (medium, s) ← readNat s
  let (high, s) ← readNat s
  some (⟨auto, low, medium, high⟩, s)

/-- `FMSTATE_CODE`. -/
def readFmStateCode : Reader FmStateCode := fun s => do
  let (start, s) ← readNat s
  let (update, s) ← readNat s
  let (stop, s) ← readNat s
  some (⟨start, update, stop⟩, s)

/-- An entry of `SEG_TABLE`. -/
def readSegEntry : Reader (Byte × List Ch) := fun s => do
  let (k, s) ← readByte s
  let (t, s) ← readList readByte s
  some ((k, t), s)

/-- An optional `u32`: a presence bit and the value (zero when absent). -/
def readOptionalWord : Reader (Option Word) := fun s => do
  let (b, s) ← readBool s
  let (w, s) ← readWord s
  some (if b then some w else none, s)

/-- A configuration record (R5, R120), its fields in the order of Configuration. -/
def readConfig : Reader Configuration := fun s => do
  let (isHeatPump, s) ← readBool s
  let (epsNum, s) ← readNat s
  let (epsDen, s) ← readNat s
  let (sampleCount, s) ← readNat s
  let (bitCount, s) ← readNat s
  let (syncCount, s) ← readNat s
  let (syncWindows, s) ← readList readWindow s
  let (separatorWindow, s) ← readWindow s
  let (zeroWindow, s) ← readWindow s
  let (oneWindow, s) ← readWindow s
  let (breakWindow, s) ← readWindow s
  let (ringCap, s) ← readNat s
  let (ticksPerUs, s) ← readNat s
  let (isRestart, s) ← readBool s
  let (hasupdAtomic, s) ← readBool s
  let (markerMask, s) ← readByte s
  let (markerValue, s) ← readByte s
  let (kindMask, s) ← readByte s
  let (kindCommand, s) ← readByte s
  let (kindOption, s) ← readByte s
  let (kindFollowMe, s) ← readByte s
  let (checksum, s) ← readChecksum s
  let (fieldMap, s) ← readFieldMap s
  let (modeCode, s) ← readModeCode s
  let (fanCode, s) ← readFanCode s
  let (fmStateCode, s) ← readFmStateCode s
  let (tempOffset, s) ← readInt s
  let (tempMin, s) ← readInt s
  let (tempMax, s) ← readInt s
  let (fmTempOffset, s) ← readInt s
  let (fmTempMin, s) ← readInt s
  let (fmTempMax, s) ← readInt s
  let (optionSet, s) ← readList readByte s
  let (blankCode, s) ← readByte s
  let (segTable, s) ← readList readSegEntry s
  let (labels, s) ← readList (readList readByte) s
  let (nSelect, s) ← readNat s
  let (nAdvance, s) ← readNat s
  let (optSelect, s) ← readByte s
  let (optAdvance, s) ← readByte s
  let (debounce, s) ← readWord s
  let (scanInterval, s) ← readOptionalWord s
  let (cooldown, s) ← readWord s
  some ({
    variant := if isHeatPump then .heatPump else .generic
    epsNum, epsDen, sampleCount, bitCount, syncCount, syncWindows, separatorWindow, zeroWindow, oneWindow,
    breakWindow, ringCap, ticksPerUs
    malformedPolicy := if isRestart then .restartCount else .abort
    hasupdAtomic, markerMask, markerValue, kindMask, kindCommand, kindOption, kindFollowMe, checksum, fieldMap,
    modeCode, fanCode, fmStateCode, tempOffset, tempMin, tempMax, fmTempOffset, fmTempMin, fmTempMax, optionSet,
    blankCode, segTable, labels, nSelect, nAdvance, optSelect, optAdvance, debounce, scanInterval, cooldown }, s)

/-- The operands of TWMK. -/
def readTwmk : Reader (Word × Word × Word) := fun s => do
  let (nominal, s) ← readWord s
  let (epsNum, s) ← readWord s
  let (epsDen, s) ← readWord s
  some ((nominal, epsNum, epsDen), s)

/-- The operands of TWIN. -/
def readTwin : Reader (Window × Word) := fun s => do
  let (w, s) ← readWindow s
  let (d, s) ← readWord s
  some ((w, d), s)

/-- A buffer and a time stamp: the operands of ISVALID, and a wire message. -/
def readStamped (n : Nat) : Reader (List Byte × Word) := fun s => do
  let (b, s) ← readBuffer n s
  let (now, s) ← readWord s
  some ((b, now), s)

/-- The operands of FMCMD. -/
def readFmcmd (n : Nat) : Reader (List Byte × Option FmState × Int) := fun s => do
  let (prev, s) ← readBuffer n s
  let (st, s) ← readFmState s
  let (t, s) ← readInt s
  some ((prev, st, t), s)

/-! ### The decoder -/

/-- Why bytes are no operation of the table. -/
inductive Reject where
  /-- An operation code R37 does not assign (R48, R122). -/
  | unassignedCode
  /-- The bytes end before the operand bundle does. -/
  | truncated
  /-- A wire message whose instruction byte is none of the three kinds (R43). -/
  | unrecognisedKind
  /-- A host turn carries no operation. -/
  | noOperation
deriving DecidableEq, Repr

/-- What a request decodes to. -/
inductive Decoded where
  | instr (i : Instr)
  | rejected (r : Reject)
deriving DecidableEq, Repr

/-- An operation from the operands read; bytes after the bundle are not looked at. -/
def withOperands {α : Type} (r : Option (α × List Byte)) (f : α → Instr) : Decoded :=
  match r with
  | some (a, _) => .instr (f a)
  | none => .rejected .truncated

/-- The operation map of the command port (R37), for a block whose configuration is `c`. -/
def decodeCommand (c : Configuration) : List Byte → Decoded
  | [] => .rejected .truncated
  | op :: s =>
    match op.toNat with
    | 0x00 => .instr .nop
    | 0x01 => withOperands (readConfig s) .reset
    | 0x02 => withOperands (readByte s) .status
    | 0x04 => withOperands (readTwmk s) fun a => .twmk a.1 a.2.1 a.2.2
    | 0x05 => withOperands (readTwin s) fun a => .twin a.1 a.2
    | 0x20 => withOperands (readBuffer c.msgLen s) .send
    | 0x21 => withOperands (readBuffer c.msgLen s) .sendW
    | 0x22 => .instr .listen
    | 0x23 => .instr .listenstop
    | 0x24 => .instr .chkmsg
    | 0x40 => withOperands (readStamped c.msgLen s) fun a => .isvalid a.1 a.2
    | 0x41 => withOperands (readStamped c.msgLen s) fun a => .isvalidS a.1 a.2
    | 0x42 => .instr .getmsg
    | 0x43 => withOperands (readByte s) .optcmd
    | 0x44 => withOperands (readFmcmd c.msgLen s) fun a => .fmcmd a.1 a.2.1 a.2.2
    | 0x45 => .instr .getseq
    | 0x46 => .instr .getts
    | 0x47 => .instr .getkind
    | 0x48 => .instr .getPower
    | 0x49 => withOperands (readBool s) .setPower
    | 0x4A => .instr .getMode
    | 0x4B => withOperands (readMode s) .setMode
    | 0x4C => .instr .getFan
    | 0x4D => withOperands (readFan s) .setFan
    | 0x4E => .instr .getSleep
    | 0x4F => withOperands (readBool s) .setSleep
    | 0x50 => .instr .getTemp
    | 0x51 => withOperands (readInt s) .setTemp
    | 0x52 => .instr .getOption
    | 0x53 => withOperands (readByte s) .setOption
    | 0x54 => .instr .getFmtemp
    | 0x55 => withOperands (readInt s) .setFmtemp
    | 0x56 => .instr .getFmstate
    | 0x57 => withOperands (readFmState s) .setFmstate
    | 0x60 => .instr .dlisten
    | 0x61 => .instr .dlistenstop
    | 0x62 => .instr .hasupd
    | 0x63 => .instr .ascii
    | 0x64 => withOperands (readText s) .a2i
    | 0x80 => withOperands (readWord s) .scanstart
    | 0x81 => withOperands (readWord s) .scantick
    | 0x82 => .instr .propsnap
    | _ => .rejected .unassignedCode

/-- The events (R36): the code is the low two bits of the first byte. -/
def decodeEvent : List Byte → Decoded
  | [] => .rejected .truncated
  | ev :: s =>
    match ev.toNat % 4 with
    | 0 => withOperands (readWord s) .rxedge
    | 1 => .instr .txcmp
    | 2 => withOperands (readBool s) .dclk
    | _ => .instr .dstb

/-- The wire messages (R43): the kind stands in byte 0 of sample 0. -/
def decodeWire (c : Configuration) (s : List Byte) : Decoded :=
  match readStamped c.msgLen s with
  | none => .rejected .truncated
  | some ((buf, now), _) =>
    match Machine.wireKind c buf with
    | some .command => .instr (.msgCommand buf now)
    | some .option => .instr (.msgOption buf now)
    | some .followMe => .instr (.msgFollowme buf now)
    | none => .rejected .unrecognisedKind

/-- The decoder of a block whose configuration is `c`. -/
def decode (c : Configuration) : Request → Decoded
  | .command s => decodeCommand c s
  | .event s => decodeEvent s
  | .wire s => decodeWire c s
  | .turn => .rejected .noOperation

/-! ### The encoder -/

/-- A `u32` in four bytes, least significant first. -/
def putWord (w : Word) : List Byte :=
  [BitVec.ofNat 8 w.toNat, BitVec.ofNat 8 (w.toNat / 2 ^ 8), BitVec.ofNat 8 (w.toNat / 2 ^ 16),
   BitVec.ofNat 8 (w.toNat / 2 ^ 24)]

/-- A natural number in 32 bits. -/
def putNat (n : Nat) : List Byte := putWord (BitVec.ofNat 32 n)

/-- A signed number in 32 bits. -/
def putInt (t : Int) : List Byte := putWord (BitVec.ofInt 32 t)

/-- A one-bit operand. -/
def putBool (b : Bool) : List Byte := [if b then 1 else 0]

/-- A window operand. -/
def putWindow (w : Window) : List Byte := putWord w.nominal ++ (putWord w.lo ++ putWord w.hi)

/-- A list behind its count. -/
def putList {α : Type} (p : α → List Byte) (as : List α) : List Byte := putNat as.length ++ as.flatMap p

/-- A text operand: its length and four bytes, the unused ones 0. -/
def putText (t : List Ch) : List Byte :=
  BitVec.ofNat 8 t.length :: (t ++ List.replicate (4 - t.length) 0)

/-- A Mode operand; 0xFF stands for no value of the enum. -/
def putMode : Option Mode → List Byte
  | some .auto => [0]
  | some .cool => [1]
  | some .dry => [2]
  | some .heat => [3]
  | some .fan => [4]
  | none => [0xFF]

/-- A Fan operand. -/
def putFan : Option Fan → List Byte
  | some .auto => [0]
  | some .low => [1]
  | some .medium => [2]
  | some .high => [3]
  | none => [0xFF]

/-- A FmState operand. -/
def putFmState : Option FmState → List Byte
  | some .start => [0]
  | some .update => [1]
  | some .stop => [2]
  | none => [0xFF]

/-- The checksum function's name. -/
def putChecksum : ChecksumChoice → List Byte
  | .ref => putNat 0
  | .other n => putNat (n + 1)

/-- A field. -/
def putFieldPlace (f : Field) : List Byte := putNat f.start ++ putNat f.width

/-- `FIELDMAP`. -/
def putFieldMap (m : FieldMap) : List Byte :=
  putFieldPlace m.power ++ (putFieldPlace m.sleep ++ (putFieldPlace m.mode ++ (putFieldPlace m.fan ++
  (putFieldPlace m.temp ++ (putFieldPlace m.status ++ (putFieldPlace m.time ++ (putFieldPlace m.option ++
  (putFieldPlace m.fmState ++ putFieldPlace m.fmTemp))))))))

/-- `MODE_CODE`. -/
def putModeCode (m : ModeCode) : List Byte :=
  putNat m.auto ++ (putNat m.cool ++ (putNat m.dry ++ (putNat m.heat ++ putNat m.fan)))

/-- `FAN_CODE`. -/
def putFanCode (m : FanCode) : List Byte :=
  putNat m.auto ++ (putNat m.low ++ (putNat m.medium ++ putNat m.high))

/-- `FMSTATE_CODE`. -/
def putFmStateCode (m : FmStateCode) : List Byte := putNat m.start ++ (putNat m.update ++ putNat m.stop)

/-- An entry of `SEG_TABLE`. -/
def putSegEntry (e : Byte × List Ch) : List Byte := e.1 :: putList (fun b => [b]) e.2

/-- An optional `u32`. -/
def putOptionalWord : Option Word → List Byte
  | some w => putBool true ++ putWord w
  | none => putBool false ++ putWord 0

/-- A configuration record. -/
def putConfig (c : Configuration) : List Byte :=
  putBool (c.variant == .heatPump) ++ (putNat c.epsNum ++ (putNat c.epsDen ++ (putNat c.sampleCount ++
  (putNat c.bitCount ++ (putNat c.syncCount ++ (putList putWindow c.syncWindows ++ (putWindow c.separatorWindow ++
  (putWindow c.zeroWindow ++ (putWindow c.oneWindow ++ (putWindow c.breakWindow ++ (putNat c.ringCap ++
  (putNat c.ticksPerUs ++ (putBool (c.malformedPolicy == .restartCount) ++ (putBool c.hasupdAtomic ++
  ([c.markerMask, c.markerValue, c.kindMask, c.kindCommand, c.kindOption, c.kindFollowMe] ++
  (putChecksum c.checksum ++ (putFieldMap c.fieldMap ++ (putModeCode c.modeCode ++ (putFanCode c.fanCode ++
  (putFmStateCode c.fmStateCode ++ (putInt c.tempOffset ++ (putInt c.tempMin ++ (putInt c.tempMax ++
  (putInt c.fmTempOffset ++ (putInt c.fmTempMin ++ (putInt c.fmTempMax ++
  (putList (fun b => [b]) c.optionSet ++ ([c.blankCode] ++ (putList putSegEntry c.segTable ++
  (putList (putList fun b => [b]) c.labels ++ (putNat c.nSelect ++ (putNat c.nAdvance ++
  ([c.optSelect, c.optAdvance] ++ (putWord c.debounce ++ (putOptionalWord c.scanInterval ++
  putWord c.cooldown)))))))))))))))))))))))))))))))))))

/-- The bytes of an operation on its port: the code of R37 or R36 and the operand bundle; of a wire message, its buffer
and the counter value at its first transition. -/
def encode : Instr → List Byte
  | .nop => [0x00]
  | .reset config => 0x01 :: putConfig config
  | .status sel => [0x02, sel]
  | .twmk nominal epsNum epsDen => 0x04 :: (putWord nominal ++ (putWord epsNum ++ putWord epsDen))
  | .twin w d => 0x05 :: (putWindow w ++ putWord d)
  | .send m => 0x20 :: m
  | .sendW m => 0x21 :: m
  | .listen => [0x22]
  | .listenstop => [0x23]
  | .chkmsg => [0x24]
  | .isvalid b now => 0x40 :: (b ++ putWord now)
  | .isvalidS b now => 0x41 :: (b ++ putWord now)
  | .getmsg => [0x42]
  | .optcmd o => [0x43, o]
  | .fmcmd prev st t => 0x44 :: (prev ++ (putFmState st ++ putInt t))
  | .getseq => [0x45]
  | .getts => [0x46]
  | .getkind => [0x47]
  | .getPower => [0x48]
  | .setPower v => 0x49 :: putBool v
  | .getMode => [0x4A]
  | .setMode m => 0x4B :: putMode m
  | .getFan => [0x4C]
  | .setFan f => 0x4D :: putFan f
  | .getSleep => [0x4E]
  | .setSleep v => 0x4F :: putBool v
  | .getTemp => [0x50]
  | .setTemp t => 0x51 :: putInt t
  | .getOption => [0x52]
  | .setOption o => [0x53, o]
  | .getFmtemp => [0x54]
  | .setFmtemp t => 0x55 :: putInt t
  | .getFmstate => [0x56]
  | .setFmstate st => 0x57 :: putFmState st
  | .dlisten => [0x60]
  | .dlistenstop => [0x61]
  | .hasupd => [0x62]
  | .ascii => [0x63]
  | .a2i text => 0x64 :: putText text
  | .scanstart now => 0x80 :: putWord now
  | .scantick now => 0x81 :: putWord now
  | .propsnap => [0x82]
  | .rxedge now => 0 :: putWord now
  | .txcmp => [1]
  | .dclk data => 2 :: putBool data
  | .dstb => [3]
  | .msgCommand buf now => buf ++ putWord now
  | .msgOption buf now => buf ++ putWord now
  | .msgFollowme buf now => buf ++ putWord now

/-- The three ports. -/
inductive Port where
  | command
  | event
  | wire
deriving DecidableEq, Repr

/-- The port an operation is offered on. -/
def portOf : Instr → Port
  | .rxedge _ => .event
  | .txcmp => .event
  | .dclk _ => .event
  | .dstb => .event
  | .msgCommand _ _ => .wire
  | .msgOption _ _ => .wire
  | .msgFollowme _ _ => .wire
  | .nop | .reset _ | .status _ | .twmk _ _ _ | .twin _ _ => .command
  | .send _ | .sendW _ | .listen | .listenstop | .chkmsg => .command
  | .isvalid _ _ | .isvalidS _ _ | .getmsg | .optcmd _ | .fmcmd _ _ _ | .getseq | .getts | .getkind => .command
  | .getPower | .setPower _ | .getMode | .setMode _ | .getFan | .setFan _ | .getSleep | .setSleep _ => .command
  | .getTemp | .setTemp _ | .getOption | .setOption _ | .getFmtemp | .setFmtemp _ | .getFmstate => .command
  | .setFmstate _ | .dlisten | .dlistenstop | .hasupd | .ascii | .a2i _ => .command
  | .scanstart _ | .scantick _ | .propsnap => .command

/-- Bytes offered on a port. -/
def requestOn : Port → List Byte → Request
  | .command, s => .command s
  | .event, s => .event s
  | .wire, s => .wire s

/-- The request that offers an operation. -/
def requestOf (i : Instr) : Request := requestOn (portOf i) (encode i)

/-! ### The opcode table's words -/

/-- The bytes of a table word: its `nbits` bits, bit 0 the least significant of the first byte, then zeros past the end
of the longest bundle of zeros. -/
def tableBytes (nbits w : Nat) : List Byte :=
  (List.range ((nbits + 7) / 8)).map (fun k => BitVec.ofNat 8 (w / 2 ^ (8 * k))) ++ List.replicate 512 0

/-- The request a table word stands for. The table numbers the operation codes, the event codes and the message kinds
in three spaces that overlap and does not name the space (notes/assumptions/13.md): a word of fewer than 8 bits is an
event, a word R37 assigns is a command, a byte of a message kind is a wire message, and of the rest 0 to 3 are events. -/
def tableRequest (c : Configuration) (nbits w : Nat) : Request :=
  let s := tableBytes nbits w
  if nbits < 8 then .event s
  else match decodeCommand c s, decodeWire c s with
    | .rejected .unassignedCode, .instr _ => .wire s
    | .rejected .unassignedCode, .rejected _ => if w % 256 < 4 then .event s else .command s
    | _, _ => .command s

/-- The instruction the decoder of the block after reset reads from a table word. -/
def decodeTableWord (nbits w : Nat) : Option Instr :=
  match decode Configuration.refHp (tableRequest Configuration.refHp nbits w) with
  | .instr i => some i
  | .rejected _ => none

end Sys2Proof
end

