-- ==== Sys2Proof/Machine/State.lean ====
section
/-! DEFINITION. The state of the block (spec/10_state.md R11, R13, R14, R15), its response port, its reasons to stop and
its state after reset (spec/70_reset_and_hazards.md R143). -/

namespace Sys2Proof.Machine

/-- ReceiverState (R11). -/
inductive RxState where
  | preamble
  | message
deriving DecidableEq, Repr

/-- The scanner's states (R15); their arguments are fields of State (spec/45_scanner.md R113). -/
inductive ScanState where
  | idle
  | stepping
  | awaitingLabel
  | awaitingValue
deriving DecidableEq, Repr

/-- A display frame: two digit codes and the LED byte (R14). -/
structure Frame where
  b0 : Byte
  b1 : Byte
  b2 : Byte
deriving DecidableEq, Repr

/-- Where a HASUPD split into sub-steps stands (spec/20_memory.md R32), with the bytes it has read. -/
inductive HasupdPhase where
  | idle
  | cleared
  | read0 (b0 : Byte)
  | read1 (b0 b1 : Byte)
deriving DecidableEq, Repr

/-- The status codes (spec/60_exceptions.md R127). -/
inductive Status where
  | ok
  | none
  | busy
  | malformedFrame
  | checksumMismatch
  | invalidMarker
  | unsupportedInstruction
  | invalidField
  | illegalOp
  | resourceExhaustion
  | spuriousEdge
deriving DecidableEq, Repr

/-- The result bundle of a response (spec/30_encoding.md R37). -/
inductive Result where
  | empty
  | word (v : Word)
  | window (w : Window)
  | bit (b : Bool)
  | buffer (b : List Byte)
  | kind (k : Kind)
  | mode (m : Mode)
  | fan (f : Fan)
  | fmState (st : FmState)
  | signed (v : Int)
  | option (o : Byte)
  /-- The raw field code a getter returns with `INVALID_FIELD` (spec/43_codec.md R80), or the kind code of GETKIND. -/
  | code (c : Nat)
  | text (t : List Ch) (led : Byte)
  /-- `ScanOut` (spec/45_scanner.md R116). -/
  | scanOut (sent captured done : Bool)
  | properties (ps : List (List Ch × Int))
deriving DecidableEq, Repr

/-- A response of the command port: status and result (spec/30_encoding.md R35). -/
structure Response where
  status : Status
  result : Result
deriving DecidableEq, Repr

/-- `TxToggle(level, ticks)` (spec/41_transceiver_tx.md R62). -/
structure Toggle where
  level : Bool
  ticks : Word
deriving DecidableEq, Repr

/-- Why a step stops with a fault. The spec has no fatal condition (R127, R132). -/
inductive Fault where
  /-- Raised by `step` when a request has fewer bytes than its operation's operand bundle, which the spec says cannot be
  expressed (spec/20_memory.md R27). Safe: the model stops where no real request exists (notes/assumptions/17.md). -/
  | truncatedBundle
deriving DecidableEq, Repr

/-- Why an instruction has no meaning. -/
inductive Refusal where
  /-- Raised by `exec` for an instruction without a meaning yet; no instruction of this model is one. Safe. -/
  | notModelled (mnemonic : String)
deriving DecidableEq, Repr

/-- The machine. The fields up to `passDone` are the spec's; the last four are the model's. -/
structure State where
  /-- The configuration record; RESET replaces it (R120, notes/assumptions/3.md). -/
  cfg             : Configuration
  -- transceiver, R11
  ring            : List Word
  wrIdx           : Nat
  lastEdgeTime    : Word
  rxState         : RxState
  preambleIdx     : Nat
  edgeCount       : Word
  repeatEdgeCount : Word
  received        : Bool
  listening       : Bool
  msgBuf          : List Byte
  txTable         : List Word
  txIdx           : Nat
  txActive        : Bool
  txCompare       : Word
  txPin           : Bool
  hostBlocked     : Bool
  -- codec, R13
  cm              : List Byte
  /-- Which sample of the last accepted buffer validated: false is 0, true is 1. -/
  validSample     : Bool
  seqNo           : Word
  lastSampleTime  : Word
  -- display decoder, R14
  dRaw            : Frame
  dShadow         : Frame
  dByte           : Byte
  dBitPos         : Fin 8
  dBytePos        : Fin 4
  dReady          : Bool
  dListening      : Bool
  -- scanner, R15
  scanState       : ScanState
  scanRemaining   : Nat
  scanIndex       : Nat
  labelSeenAt     : Word
  /-- The property values, signed 32-bit. -/
  props           : List (BitVec 32)
  passEndTime     : Word
  passDone        : Bool
  -- the model's own
  /-- A HASUPD in progress when `HASUPD_ATOMIC = false` (R32, notes/assumptions/10.md). -/
  hasupd          : HasupdPhase
  /-- The requests not yet taken, oldest first (notes/assumptions/1.md). -/
  inbox           : List Request
  /-- The responses delivered, oldest first (notes/assumptions/9.md). -/
  responses       : List Response
  /-- The output records emitted, oldest first (R62, notes/assumptions/9.md). -/
  toggles         : List Toggle
deriving DecidableEq, Repr

/-- The state after a successful construction with configuration `c` (R120, R143). -/
def State.construct (c : Configuration) : State where
  cfg             := c
  ring            := List.replicate c.ringCap 0
  wrIdx           := 0
  lastEdgeTime    := 0
  rxState         := .preamble
  preambleIdx     := 0
  edgeCount       := 0
  repeatEdgeCount := 0
  received        := false
  listening       := false
  msgBuf          := List.replicate c.msgLen 0
  txTable         := List.replicate c.tableLen 0
  txIdx           := 0
  txActive        := false
  txCompare       := 0
  txPin           := false
  hostBlocked     := false
  cm              := resetMessage c
  validSample     := false
  seqNo           := 0
  lastSampleTime  := 0
  dRaw            := ⟨0, 0, 0⟩
  dShadow         := ⟨0, 0, 0⟩
  dByte           := 0
  dBitPos         := 0
  dBytePos        := 0
  dReady          := false
  dListening      := false
  scanState       := .idle
  scanRemaining   := 0
  scanIndex       := 0
  labelSeenAt     := 0
  props           := List.replicate 27 0
  passEndTime     := 0
  passDone        := false
  hasupd          := .idle
  inbox           := []
  responses       := []
  toggles         := []

/-- The machine right after reset: constructed with the spec's reference set REF_HP, nothing offered to it yet (R120:
"A model takes the state after a successful RESET as its initial state"; notes/assumptions/3.md, DESIGN CHOICE). -/
def State.reset : State := State.construct Configuration.refHp

end Sys2Proof.Machine
end

