-- ==== Sys2Proof/Machine/Windows.lean ====
section
/-! DEFINITION. The tolerance window (spec/40_tolerance_descriptor.md R53, R54) and the well-formedness of a
configuration record (spec/00_scope.md R5, R6; spec/70_reset_and_hazards.md R145). -/

namespace Sys2Proof.Machine

/-- `InWin(w, d)` (R8, R54): `lo ≤ d ≤ hi`, unsigned, both ends included. -/
def inWin (w : Window) (d : Word) : Bool := decide (w.lo ≤ d) && decide (d ≤ w.hi)

/-- The lower bound of R53 on exact integers: `floor(nominal·(1-ε))`. -/
def windowLo (nominal num den : Nat) : Nat := nominal * (den - num) / den

/-- The upper bound of R53 on exact integers: `ceil(nominal·(1+ε))`. -/
def windowHi (nominal num den : Nat) : Nat := (nominal * (den + num) + den - 1) / den

/-- The window R53 builds, or none when the upper bound does not fit `u32` (D16). -/
def mkWindow (nominal : Word) (num den : Nat) : Option Window :=
  if windowHi nominal.toNat num den < 2 ^ 32 then
    some ⟨nominal, BitVec.ofNat 32 (windowLo nominal.toNat num den), BitVec.ofNat 32 (windowHi nominal.toNat num den)⟩
  else none

/-- A window is the one R53 builds from its nominal with the protocol's ε (R5, R56). -/
def builtByR53 (c : Configuration) (w : Window) : Bool := mkWindow w.nominal c.epsNum c.epsDen == some w

/-- Two windows share no duration (R5, D28). -/
def disjointWindows (a b : Window) : Bool := decide (a.hi < b.lo) || decide (b.hi < a.lo)

/-- A nominal duration in ticks, on exact integers (spec/30_encoding.md R39). -/
def ticksOf (c : Configuration) (w : Window) : Nat := w.nominal.toNat * c.ticksPerUs

/-- Every window of the descriptor (R56). -/
def windowsOf (c : Configuration) : List Window :=
  c.syncWindows ++ [c.separatorWindow, c.zeroWindow, c.oneWindow, c.breakWindow]

/-- The descriptor's constraints (R5, R56, D28, D33). -/
def wfDescriptor (c : Configuration) : Bool :=
  decide (0 < c.epsNum ∧ c.epsNum < c.epsDen) &&
  decide (1 ≤ c.sampleCount ∧ 1 ≤ c.bitCount ∧ 1 ≤ c.syncCount) &&
  decide (c.variant = .heatPump → c.sampleCount = 2 ∧ c.bitCount % 8 = 0 ∧ 16 ≤ c.bitCount) &&
  decide (c.syncWindows.length = c.syncCount) &&
  (windowsOf c).all (builtByR53 c) &&
  disjointWindows c.zeroWindow c.oneWindow &&
  (decide (c.brk = 0) ||
    (disjointWindows c.zeroWindow c.breakWindow && disjointWindows c.oneWindow c.breakWindow))

/-- The ring and tick constraints (R5, R145). -/
def wfPlatform (c : Configuration) : Bool :=
  decide (c.tableLen < c.ringCap ∧ c.threshold + 1 < c.ringCap ∧ c.syncCount ≤ c.ringCap) &&
  decide (1 ≤ c.ticksPerUs) &&
  (windowsOf c).all (fun w => decide (ticksOf c w < 2 ^ 32))

/-- A mask is one nibble (R5). -/
def isNibble (m : Byte) : Bool := m == 0xF0 || m == 0x0F

/-- The instruction byte's constraints (R5): of the values it asks nothing (notes/assumptions/8.md). -/
def wfInstructionByte (c : Configuration) : Bool :=
  isNibble c.markerMask && isNibble c.kindMask && c.markerMask &&& c.kindMask == 0

/-- A field lies inside payload bytes 1..PB-1 and is at least one bit wide (R5, R41). -/
def wfField (c : Configuration) (f : Field) : Bool :=
  decide (1 ≤ f.width ∧ 8 ≤ f.start ∧ f.start + f.width ≤ 8 * c.payloadBytes)

/-- Two fields share no bit. -/
def disjointFields (a b : Field) : Bool := decide (a.start + a.width ≤ b.start ∨ b.start + b.width ≤ a.start)

/-- Every two fields of a list are disjoint. -/
def pairwiseDisjoint : List Field → Bool
  | [] => true
  | f :: fs => fs.all (disjointFields f) && pairwiseDisjoint fs

/-- The five fields a Command and a FollowMe share (spec/30_encoding.md R44). -/
def commandFields (m : FieldMap) : List Field := [m.power, m.sleep, m.mode, m.fan, m.temp]

/-- `FIELDMAP`'s constraints (R5): ranges, and disjointness within each message kind. -/
def wfFieldMap (c : Configuration) : Bool :=
  (commandFields c.fieldMap ++
    [c.fieldMap.status, c.fieldMap.time, c.fieldMap.option, c.fieldMap.fmState, c.fieldMap.fmTemp]).all (wfField c) &&
  pairwiseDisjoint (commandFields c.fieldMap ++ [c.fieldMap.status, c.fieldMap.time]) &&
  pairwiseDisjoint (commandFields c.fieldMap ++ [c.fieldMap.fmState, c.fieldMap.fmTemp])

/-- The codes of an enumeration: injective (R5), and each a code of its field (notes/assumptions/8.md). -/
def wfCodes (f : Field) (codes : List Nat) : Bool :=
  decide codes.Nodup && codes.all (fun k => decide (k < 2 ^ f.width))

/-- The enumeration tables (R5). -/
def wfEnums (c : Configuration) : Bool :=
  wfCodes c.fieldMap.mode
    [c.modeCode.auto, c.modeCode.cool, c.modeCode.dry, c.modeCode.heat, c.modeCode.fan] &&
  wfCodes c.fieldMap.fan [c.fanCode.auto, c.fanCode.low, c.fanCode.medium, c.fanCode.high] &&
  wfCodes c.fieldMap.fmState [c.fmStateCode.start, c.fmStateCode.update, c.fmStateCode.stop]

/-- A temperature range (R5): the least code is no negative number, the greatest fits the field, which holds an
unsigned number (R41). -/
def wfRange (f : Field) (offset lo hi : Int) : Bool :=
  decide (0 ≤ lo - offset ∧ 0 ≤ hi - offset ∧ hi - offset < 2 ^ f.width)

/-- The temperature ranges (R5). -/
def wfTemperatures (c : Configuration) : Bool :=
  wfRange c.fieldMap.temp c.tempOffset c.tempMin c.tempMax &&
  wfRange c.fieldMap.fmTemp c.fmTempOffset c.fmTempMin c.fmTempMax

/-- The option codes (R5): non-empty, each a code of the option field, both scanner options among them. -/
def wfOptions (c : Configuration) : Bool :=
  !c.optionSet.isEmpty && c.optionSet.all (fun o => decide (o.toNat < 2 ^ c.fieldMap.option.width)) &&
  c.optionSet.contains c.optSelect && c.optionSet.contains c.optAdvance

/-- The codec's constraints: they speak of heat-pump messages and bind only that variant (notes/assumptions/7.md). -/
def wfCodec (c : Configuration) : Bool :=
  wfInstructionByte c && wfFieldMap c && wfEnums c && wfTemperatures c && wfOptions c

/-- The display's and the label catalogue's constraints (R5). -/
def wfDisplay (c : Configuration) : Bool :=
  !c.blankCode.getLsbD 0 &&
  c.segTable.all (fun e => !e.1.getLsbD 0 && decide (1 ≤ e.2.length ∧ e.2.length ≤ 2)) &&
  decide (c.labels.length = 27) && c.labels.all (fun l => decide (l.length ≤ 2))

/-- A configuration is well-formed when every constraint of R5 holds (R6). -/
def wellFormedConfig (c : Configuration) : Bool :=
  wfDescriptor c && wfPlatform c && wfDisplay c && (decide (c.variant = .generic) || wfCodec c)

end Sys2Proof.Machine
end

