-- ==== Sys2Proof/Machine/Ops.lean ====
section
/-! DEFINITION. The named operations the meanings share: completing a host operation, the ring buffer, the pulse table
and the start of a transmission, the pulses of a wire message. -/

namespace Sys2Proof.Machine

/-- The outcome type of this machine. -/
abbrev Out := Host.Outcome State Fault Refusal

/-! ### Completing an operation -/

/-- A response delivered on the command port (spec/30_encoding.md R35). -/
def State.respond (s : State) (st : Status) (r : Result) : State :=
  { s with responses := s.responses ++ [⟨st, r⟩] }

/-- The completion of a host operation with status OK and a result (spec/00_scope.md R8, `return`). -/
def State.complete (s : State) (r : Result) : Out := .next (s.respond .ok r)

/-- TAKING AN ERROR, the one shared operation: the operation completes with the status, no control is transferred,
nothing is saved and no other state changes (spec/60_exceptions.md R127, R132). There is no return from one: the next
step is whatever comes next (R132). -/
def State.fail (s : State) (st : Status) (r : Result) : Out := .next (s.respond st r)

/-- The answer to an operation code R37 does not assign (spec/46_system_ops.md R122). -/
def illegalOp (s : State) : Out := s.fail .illegalOp .empty

/-- A codec or scanner operation: under `VARIANT = Generic` it answers ILLEGAL_OP and changes nothing
(spec/43_codec.md R71, R122). -/
def State.heatPumpOnly (s : State) (k : Out) : Out :=
  match s.cfg.variant with
  | .generic => illegalOp s
  | .heatPump => k

/-! ### The ring buffer (spec/20_memory.md R25) -/

/-- `RingRead(i)`. -/
def State.ringRead (s : State) (i : Nat) : Word := s.ring.getD (i % s.cfg.ringCap) 0

/-- `RingWrite(i, v)`. -/
def State.ringWrite (s : State) (i : Nat) (v : Word) : State := { s with ring := s.ring.set (i % s.cfg.ringCap) v }

/-- `SyncMatch` (spec/42_transceiver_rx.md R67): the last `syncCount` durations, oldest against window 0. -/
def State.syncMatch (s : State) : Bool :=
  (List.range s.cfg.syncCount).all fun k =>
    inWin (s.cfg.syncWindows.getD k ⟨0, 0, 0⟩) (s.ringRead (s.wrIdx + s.cfg.ringCap - s.cfg.syncCount + k))

/-! ### The transmitter (spec/41_transceiver_tx.md R58, R59) -/

/-- `NominalOf(m, s, p)` (R58, R38): the nominal duration of slot `p` of sample-frame `s`. -/
def nominalOf (c : Configuration) (m : List Byte) (s p : Nat) : Word :=
  if p < c.syncCount then (c.syncWindows.getD p ⟨0, 0, 0⟩).nominal
  else if (p - c.syncCount) % 2 = 0 then c.separatorWindow.nominal
  else if (p - c.syncCount) / 2 < c.bitCount then
    if getBit c.bitCount m s ((p - c.syncCount) / 2) then c.oneWindow.nominal else c.zeroWindow.nominal
  else c.breakWindow.nominal

/-- The nominal duration of pulse `j` of a message (R38). -/
def pulse (c : Configuration) (m : List Byte) (j : Nat) : Word := nominalOf c m (j / c.frameLen) (j % c.frameLen)

/-- `Table(m)` (R58, R39): all `N` entries in ticks. -/
def pulseTable (c : Configuration) (m : List Byte) : List Word :=
  (List.range c.tableLen).map fun j => BitVec.ofNat 32 ((pulse c m j).toNat * c.ticksPerUs)

/-- `emit TxToggle(level, ticks)` (R62). -/
def State.emitToggle (s : State) (level : Bool) (ticks : Word) : State :=
  { s with toggles := s.toggles ++ [⟨level, ticks⟩] }

/-- The effect of SEND on a free transmitter (R59), without its response: the buffer, the whole table, the pin forced
idle and toggled to the active level for entry 0, the timer enabled. The padding bits of the buffer are written 0
(R12, notes/assumptions/15.md). -/
def State.startTransmission (s : State) (m : List Byte) : State :=
  { s with
    msgBuf    := clearPadding (s.cfg.sampleCount * s.cfg.bitCount) m
    txTable   := pulseTable s.cfg m
    txIdx     := 0
    txPin     := true
    txCompare := (pulseTable s.cfg m).getD 0 0
    txActive  := true
    toggles   := s.toggles ++ [⟨true, (pulseTable s.cfg m).getD 0 0⟩] }

/-! ### Messages on the wire (spec/30_encoding.md R38; R62) -/

/-- The counter values at the transitions of a message whose first transition is at `now`: one per pulse, each after
the pulse before it (R38, R62). -/
def edgeTimes (c : Configuration) (m : List Byte) (now : Word) : Nat → Nat → List Word
  | _, 0 => []
  | j, n + 1 => now :: edgeTimes c m (now + pulse c m j) (j + 1) n

/-- A message on the wire reaches the receive pin as `N` transitions, each an RXEDGE event (R38, R62): they are offered
next, in order, each in a step of its own (notes/assumptions/12.md). -/
def State.deliverMessage (s : State) (m : List Byte) (now : Word) : State :=
  { s with inbox := (edgeTimes s.cfg m now 0 s.cfg.tableLen).map (fun t => requestOf (.rxedge t)) ++ s.inbox }

end Sys2Proof.Machine
end

