-- ==== Sys2Proof/Machine/Operands.lean ====
section
/-! DEFINITION. Operand and result forms: enumeration codes, temperatures, options, the fields of the canonical sample
(spec/30_encoding.md R44 to R46; spec/43_codec.md R80, R81) and display texts (spec/44_display.md R109, R111). -/

namespace Sys2Proof.Machine

/-! ### Enumerations (R45) -/

/-- `MODE_CODE[m]`. -/
def modeCodeOf (c : Configuration) : Mode → Nat
  | .auto => c.modeCode.auto
  | .cool => c.modeCode.cool
  | .dry => c.modeCode.dry
  | .heat => c.modeCode.heat
  | .fan => c.modeCode.fan

/-- The Mode whose code is `k`, if any (R85). -/
def modeOfCode (c : Configuration) (k : Nat) : Option Mode :=
  [Mode.auto, .cool, .dry, .heat, .fan].find? fun m => modeCodeOf c m == k

/-- `FAN_CODE[f]`. -/
def fanCodeOf (c : Configuration) : Fan → Nat
  | .auto => c.fanCode.auto
  | .low => c.fanCode.low
  | .medium => c.fanCode.medium
  | .high => c.fanCode.high

/-- The Fan value whose code is `k`, if any (R87). -/
def fanOfCode (c : Configuration) (k : Nat) : Option Fan :=
  [Fan.auto, .low, .medium, .high].find? fun f => fanCodeOf c f == k

/-- `FMSTATE_CODE[st]`. -/
def fmStateCodeOf (c : Configuration) : FmState → Nat
  | .start => c.fmStateCode.start
  | .update => c.fmStateCode.update
  | .stop => c.fmStateCode.stop

/-- The FmState whose code is `k`, if any (R97). -/
def fmStateOfCode (c : Configuration) (k : Nat) : Option FmState :=
  [FmState.start, .update, .stop].find? fun st => fmStateCodeOf c st == k

/-- The value of a power or sleep code (R80: a code that is no value of the field's type has none; notes/assumptions/25.md). -/
def bitOfCode (k : Nat) : Option Bool :=
  match k with
  | 0 => some false
  | 1 => some true
  | _ => none

/-- A bit as a field code. -/
def bitCode (b : Bool) : Nat := if b then 1 else 0

/-! ### Temperatures and options (R46, R93) -/

/-- A temperature lies in its range (R92, R96). -/
def inRange (lo hi t : Int) : Bool := decide (lo ≤ t) && decide (t ≤ hi)

/-- The temperature of a code, if it is in range: `T = c + OFFSET` (R91, R95). -/
def tempOfCode (offset lo hi : Int) (k : Nat) : Option Int :=
  if inRange lo hi (k + offset) then some (k + offset) else none

/-- The code of a temperature in range: `c = T - OFFSET` (R46). -/
def tempCode (offset t : Int) : Nat := (t - offset).toNat

/-- The option of a code, if it is in `OPTION_SET` (R93). -/
def optionOfCode (c : Configuration) (k : Nat) : Option Byte := c.optionSet.find? fun o => o.toNat == k

/-! ### Fields of the canonical sample -/

/-- The instruction kind of the owned message (R72, R79), told by its code. -/
def State.kind? (s : State) : Option Kind := kindOf s.cfg (pay s.cfg s.cm 0)

/-- The kinds whose messages hold the Command fields (R44). -/
def commandKinds : List Kind := [.command, .followMe]

/-- The owned message is of one of the kinds (R80). -/
def State.hasKind (s : State) (ks : List Kind) : Bool := isOfKind s.cfg (pay s.cfg s.cm 0) ks

/-- `GetField(cm, 0, FIELDMAP[x])`. -/
def State.field (s : State) (f : FieldMap → Field) : Nat := getField s.cm (f s.cfg.fieldMap)

/-- `x <- v` for a field of the owned message. -/
def State.setField (s : State) (f : FieldMap → Field) (v : Nat) : State :=
  { s with cm := putField s.cm (f s.cfg.fieldMap) v }

/-- The decoded mode (R88, R90): none for a reserved code. -/
def State.mode? (s : State) : Option Mode := modeOfCode s.cfg (s.field (·.mode))

/-- The common behaviour of every GET.x (R80): ILLEGAL_OP under the generic variant; INVALID_FIELD and 0 for a kind
without the field; the value, or INVALID_FIELD and the raw code. -/
def State.getter {α : Type} (s : State) (ks : List Kind) (f : FieldMap → Field) (value : Nat → Option α)
    (result : α → Result) : Out :=
  s.heatPumpOnly
    (if s.hasKind ks then
      match value (s.field f) with
      | some v => s.complete (result v)
      | none => s.fail .invalidField (.code (s.field f))
    else s.fail .invalidField (.code 0))

/-- The common behaviour of every SET.x (R81): ILLEGAL_OP under the generic variant; INVALID_FIELD for a kind without
the field and for an operand that is no value (`write` is none); else the write and OK. -/
def State.setter (s : State) (ks : List Kind) (write : Option State) : Out :=
  s.heatPumpOnly
    (if s.hasKind ks then
      match write with
      | some s' => s'.complete .empty
      | none => s.fail .invalidField .empty
    else s.fail .invalidField .empty)

/-! ### Display texts -/

/-- `Seg(c)` (R109): the text of a segment code, "?" when unmapped. -/
def seg (c : Configuration) (code : Byte) : List Ch :=
  match c.segTable.find? fun e => e.1 == code with
  | some e => e.2
  | none => [ch '?']

/-- The text of the stable frame (R109). -/
def State.displayText (s : State) : List Ch := seg s.cfg s.dShadow.b0 ++ seg s.cfg s.dShadow.b1

/-- `Hex(ch)` (R111). -/
def hexValue (x : Ch) : Nat :=
  if (ch '0').toNat ≤ x.toNat ∧ x.toNat ≤ (ch '9').toNat then x.toNat - (ch '0').toNat
  else if (ch 'A').toNat ≤ x.toNat ∧ x.toNat ≤ (ch 'F').toNat then x.toNat - (ch 'A').toNat + 10
  else 0

/-- The value of a digit string, each position worth ten times the next (R111). -/
def digitsValue (t : List Ch) : Nat := t.foldl (fun v x => v * 10 + hexValue x) 0

/-- The A2I function (R111). -/
def alphaToInt (t : List Ch) : Int :=
  match t with
  | [] => 0
  | x :: rest => if x = ch '-' then -(digitsValue rest : Int) else (digitsValue (x :: rest) : Int)

/-- `Blank(text)` (spec/45_scanner.md R116): every character is a space. -/
def isBlank (t : List Ch) : Bool := t.all fun x => x == ch ' '

end Sys2Proof.Machine
end

