-- ==== Sys2Proof/Machine/Accessors.lean ====
section
/-! DEFINITION. The sixteen field accessors (spec/43_codec.md R83 to R98) over the common behaviour of R80 and R81. -/

namespace Sys2Proof.Machine

/-- GET.POWER (R83). -/
def execGetPower (s : State) : Out := s.getter commandKinds (·.power) bitOfCode .bit

/-- SET.POWER (R84): powering off clears sleep. -/
def execSetPower (v : Bool) (s : State) : Out :=
  s.setter commandKinds
    (some (if v then s.setField (·.power) 1 else (s.setField (·.power) 0).setField (·.sleep) 0))

/-- GET.MODE (R85). -/
def execGetMode (s : State) : Out := s.getter commandKinds (·.mode) (modeOfCode s.cfg) .mode

/-- The writes of SET.MODE (R86): Auto and Dry force the fan to Auto, Fan and Dry clear sleep. -/
def State.writeMode (s : State) (m : Mode) : State :=
  let s1 := s.setField (·.mode) (modeCodeOf s.cfg m)
  let s2 := if m = .auto ∨ m = .dry then s1.setField (·.fan) (fanCodeOf s.cfg .auto) else s1
  if m = .fan ∨ m = .dry then s2.setField (·.sleep) 0 else s2

/-- SET.MODE (R86). -/
def execSetMode (m : Option Mode) (s : State) : Out := s.setter commandKinds (m.map s.writeMode)

/-- GET.FAN (R87). -/
def execGetFan (s : State) : Out := s.getter commandKinds (·.fan) (fanOfCode s.cfg) .fan

/-- The write of SET.FAN (R88): mode Auto or Dry forces Auto. -/
def State.writeFan (s : State) (f : Fan) : State :=
  if s.mode? = some .auto ∨ s.mode? = some .dry then s.setField (·.fan) (fanCodeOf s.cfg .auto)
  else s.setField (·.fan) (fanCodeOf s.cfg f)

/-- SET.FAN (R88). -/
def execSetFan (f : Option Fan) (s : State) : Out := s.setter commandKinds (f.map s.writeFan)

/-- GET.SLEEP (R89). -/
def execGetSleep (s : State) : Out := s.getter commandKinds (·.sleep) bitOfCode .bit

/-- SET.SLEEP (R90): a silent no-op when not powered or in mode Fan or Dry. -/
def execSetSleep (v : Bool) (s : State) : Out :=
  s.setter commandKinds
    (some (if s.field (·.power) = 0 ∨ s.mode? = some .fan ∨ s.mode? = some .dry then s
      else s.setField (·.sleep) (bitCode v)))

/-- GET.TEMP (R91): not interpreted in mode Fan. -/
def execGetTemp (s : State) : Out :=
  if s.cfg.variant = .heatPump ∧ s.hasKind commandKinds ∧ s.mode? = some .fan then s.fail .invalidField (.code 0)
  else s.getter commandKinds (·.temp) (tempOfCode s.cfg.tempOffset s.cfg.tempMin s.cfg.tempMax) .signed

/-- SET.TEMP (R92): a silent no-op in mode Fan, before the range is looked at (notes/assumptions/21.md). -/
def execSetTemp (t : Int) (s : State) : Out :=
  s.setter commandKinds
    (if s.mode? = some .fan then some s
    else if inRange s.cfg.tempMin s.cfg.tempMax t then some (s.setField (·.temp) (tempCode s.cfg.tempOffset t))
    else none)

/-- GET.OPTION (R93). -/
def execGetOption (s : State) : Out := s.getter [.option] (·.option) (optionOfCode s.cfg) .option

/-- SET.OPTION (R94). -/
def execSetOption (o : Byte) (s : State) : Out :=
  s.setter [.option] (if s.cfg.optionSet.contains o then some (s.setField (·.option) o.toNat) else none)

/-- GET.FMTEMP (R95). -/
def execGetFmtemp (s : State) : Out :=
  s.getter [.followMe] (·.fmTemp) (tempOfCode s.cfg.fmTempOffset s.cfg.fmTempMin s.cfg.fmTempMax) .signed

/-- SET.FMTEMP (R96). -/
def execSetFmtemp (t : Int) (s : State) : Out :=
  s.setter [.followMe]
    (if inRange s.cfg.fmTempMin s.cfg.fmTempMax t then
      some (s.setField (·.fmTemp) (tempCode s.cfg.fmTempOffset t))
    else none)

/-- GET.FMSTATE (R97). -/
def execGetFmstate (s : State) : Out := s.getter [.followMe] (·.fmState) (fmStateOfCode s.cfg) .fmState

/-- SET.FMSTATE (R98). -/
def execSetFmstate (st : Option FmState) (s : State) : Out :=
  s.setter [.followMe] (st.map fun x => s.setField (·.fmState) (fmStateCodeOf s.cfg x))

end Sys2Proof.Machine
end

