-- ==== Sys2Proof/Machine/Display.lean ====
section
/-! DEFINITION. The display serial decoder: the events DCLK and DSTB, and DLISTEN, DLISTENSTOP, HASUPD, ASCII, A2I
(spec/44_display.md). -/

namespace Sys2Proof.Machine

/-- A byte of a frame written; position 3 is no byte of it. -/
def Frame.put (f : Frame) (i : Fin 4) (b : Byte) : Frame :=
  match i with
  | 0 => { f with b0 := b }
  | 1 => { f with b1 := b }
  | 2 => { f with b2 := b }
  | 3 => f

/-- The byte in progress with this sample shifted in, least significant bit first (R104). -/
def State.sample (s : State) (data : Bool) : Byte :=
  s.dByte ||| ((if data then 1#8 else 0) <<< s.dBitPos.val)

/-- DCLK (R104): nothing while detached (R133) or while the frame waits for the strobe. -/
def execDclk (data : Bool) (s : State) : Out :=
  if s.dListening && decide (s.dBytePos ≠ 3) then
    if s.dBitPos.val < 7 then .next { s with dByte := s.sample data, dBitPos := s.dBitPos + 1 }
    else
      .next { s with
        dRaw := s.dRaw.put s.dBytePos (s.sample data)
        dByte := 0
        dBitPos := 0
        dBytePos := s.dBytePos + 1
        dReady := if s.dBytePos + 1 = 3 then true else s.dReady }
  else .next s

/-- DSTB (R105). -/
def execDstb (s : State) : Out :=
  if s.dListening then .next { s with dBitPos := 0, dBytePos := 0, dByte := 0 } else .next s

/-- DLISTEN (R106). -/
def execDlisten (s : State) : Out :=
  { s with dBitPos := 0, dBytePos := 0, dByte := 0, dReady := false, dListening := true : State }.complete .empty

/-- DLISTENSTOP (R107). -/
def execDlistenstop (s : State) : Out := { s with dListening := false }.complete .empty

/-- A frame without its toggle bits (spec/30_encoding.md R47, R108). -/
def Frame.masked (f : Frame) : Frame := ⟨f.b0 &&& 0xFE, f.b1 &&& 0xFE, f.b2 &&& 0xFE⟩

/-- A frame whose digits are both shown (R108: neither is the blank code). -/
def Frame.shown (f : Frame) (blank : Byte) : Bool := f.b0 != blank && f.b1 != blank

/-- The comparison and adoption of a frame that HASUPD has read (R108). -/
def State.judgeFrame (s : State) (raw : Frame) : Out :=
  if raw.masked ≠ s.dShadow ∧ raw.masked.shown s.cfg.blankCode = true then
    { s with dShadow := raw.masked }.complete (.bit true)
  else s.complete (.bit false)

/-- HASUPD (R108). With `HASUPD_ATOMIC = false` it takes four steps (spec/20_memory.md R32): this is one of them, and
`step` runs the next ones (notes/assumptions/10.md). -/
def execHasupd (s : State) : Out :=
  match s.hasupd with
  | .idle =>
    if s.dReady then
      if s.cfg.hasupdAtomic then { s with dReady := false }.judgeFrame s.dRaw
      else .next { s with dReady := false, hasupd := .cleared }
    else s.complete (.bit false)
  | .cleared => .next { s with hasupd := .read0 s.dRaw.b0 }
  | .read0 b0 => .next { s with hasupd := .read1 b0 s.dRaw.b1 }
  | .read1 b0 b1 => { s with hasupd := .idle }.judgeFrame ⟨b0, b1, s.dRaw.b2⟩

/-- ASCII (R109). -/
def execAscii (s : State) : Out := s.complete (.text s.displayText s.dShadow.b2)

/-- A2I (R111). -/
def execA2i (text : List Ch) (s : State) : Out := s.complete (.signed (alphaToInt text))

end Sys2Proof.Machine
end

