-- ==== Sys2Proof/Machine/Receive.lean ====
section
/-! DEFINITION. The receive side: LISTEN, LISTENSTOP, CHKMSG and the event RXEDGE (spec/42_transceiver_rx.md). -/

namespace Sys2Proof.Machine

/-- A message buffer of zeros. -/
def zeroBuffer (c : Configuration) : List Byte := List.replicate c.msgLen 0

/-- LISTEN (R65). `lastEdgeTime` is not written (R146). -/
def execListen (s : State) : Out :=
  { s with
    ring            := List.replicate s.cfg.ringCap 0
    wrIdx           := 0
    msgBuf          := zeroBuffer s.cfg
    received        := false
    rxState         := .preamble
    preambleIdx     := 0
    edgeCount       := 0
    repeatEdgeCount := 0
    listening       := true : State }.complete .empty

/-- LISTENSTOP (R66). -/
def execListenstop (s : State) : Out := { s with listening := false }.complete .empty

/-- The storing of an accepted edge (R68): the duration since the edge before goes into the ring. -/
def State.storeEdge (s : State) (now : Word) : State :=
  { s.ringWrite s.wrIdx (now - s.lastEdgeTime) with
    lastEdgeTime := now
    wrIdx := (s.wrIdx + 1) % s.cfg.ringCap }

/-- The sync search of state Preamble (R68), after the edge is stored. -/
def State.searchSync (s : State) : State :=
  if s.syncMatch then
    { s with
      preambleIdx := (s.wrIdx + s.cfg.ringCap - s.cfg.syncCount) % s.cfg.ringCap
      rxState := .message
      edgeCount := BitVec.ofNat 32 s.cfg.syncCount }
  else s

/-- The edge count of state Message (R68), after the edge is stored: a re-detected sync counts, and the edge that
passes the threshold detaches the callback and sets the pending flag. -/
def State.countEdge (s : State) : State :=
  { s with
    edgeCount := s.edgeCount + 1
    repeatEdgeCount := if s.syncMatch then s.repeatEdgeCount + 1 else s.repeatEdgeCount
    listening := if s.cfg.threshold < (s.edgeCount + 1).toNat then false else s.listening
    received := if s.cfg.threshold < (s.edgeCount + 1).toNat then true else s.received }

/-- RXEDGE (R68): dropped while detached or while a message is pending (R129), else stored and run through the state
machine of R64. -/
def execRxedge (now : Word) (s : State) : Out :=
  if s.listening && !s.received then
    match s.rxState with
    | .preamble => .next (s.storeEdge now).searchSync
    | .message => .next (s.storeEdge now).countEdge
  else .next s

/-- How a decode walk ends (R70). -/
inductive WalkEnd where
  | done
  | malformed
  | exhausted
deriving DecidableEq, Repr

/-- `Boundary(d)` (R70): a break, or any sync window. -/
def boundary (c : Configuration) (d : Word) : Bool :=
  (decide (c.brk = 1) && inWin c.breakWindow d) || c.syncWindows.any fun w => inWin w d

/-- What one data duration does to the walk (R70): stop, or go on with this bit count and buffer. -/
inductive PairStep where
  | stop (e : WalkEnd)
  | go (bit : Nat) (buf : List Byte)
deriving DecidableEq, Repr

/-- The classification of a pair's second duration, in the order zero, one, boundary (R70). -/
def pairStep (c : Configuration) (d : Word) (bit : Nat) (buf : List Byte) : PairStep :=
  if inWin c.zeroWindow d then .go (bit + 1) buf
  else if inWin c.oneWindow d then .go (bit + 1) (setBitG buf bit)
  else if boundary c d then .stop .done
  else match c.malformedPolicy with
    | .abort => .stop .malformed
    | .restartCount => .go 0 (zeroBuffer c)

/-- The decode walk over the data durations (R70). -/
def walk (c : Configuration) : List Word → Nat → List Byte → WalkEnd × List Byte
  | [], _, buf => (.exhausted, buf)
  | d :: ds, bit, buf =>
    match pairStep c d bit buf with
    | .stop e => (e, buf)
    | .go bit' buf' => if bit' = c.sampleCount * c.bitCount then (.done, buf') else walk c ds bit' buf'

/-- The second durations `D(2k+1)` of the fully buffered pairs, `2k + 1 < edgeCount - syncCount` (R70). -/
def State.dataDurations (s : State) : List Word :=
  (List.range ((s.edgeCount.toNat - s.cfg.syncCount) / 2)).map fun k =>
    s.ringRead (s.preambleIdx + s.cfg.syncCount + (2 * k + 1))

/-- The drained receiver (R70): `ring`, `wrIdx`, `preambleIdx` and `listening` are left as they are. -/
def State.drain (s : State) (buf : List Byte) : State :=
  { s with msgBuf := buf, received := false, rxState := .preamble, edgeCount := 0, repeatEdgeCount := 0 }

/-- CHKMSG (R70, R128). -/
def execChkmsg (s : State) : Out :=
  if s.received then
    match walk s.cfg s.dataDurations 0 (zeroBuffer s.cfg) with
    | (.done, buf) => (s.drain buf).complete (.buffer buf)
    | (.malformed, _) => (s.drain (zeroBuffer s.cfg)).fail .malformedFrame .empty
    | (.exhausted, _) => (s.drain (zeroBuffer s.cfg)).fail .malformedFrame .empty
  else s.fail .none .empty

end Sys2Proof.Machine
end

