-- ==== Sys2Proof/Machine/Codec.lean ====
section
/-! DEFINITION. The codec: ISVALID, GETMSG, GETKIND, the factories OPTCMD and FMCMD, the counters GETSEQ and GETTS
(spec/43_codec.md). -/

namespace Sys2Proof.Machine

/-- The status that reports a failed check (R75, R130). -/
def checkStatus : CheckResult → Status
  | .good => .ok
  | .invalidMarker => .invalidMarker
  | .checksumMismatch => .checksumMismatch

/-- The sample that validates: sample 0 is tried first (R76). -/
def chooseSample (c : Configuration) (b : List Byte) : Option Nat :=
  if check c b 0 = .good then some 0 else if check c b 1 = .good then some 1 else none

/-- The adoption of a validated payload (R76, R72). -/
def State.adopt (s : State) (p : List Byte) (sample : Nat) (now : Word) : State :=
  { s with
    cm := build s.cfg p
    validSample := sample == 1
    seqNo := s.seqNo + 1
    lastSampleTime := now }

/-- The status of an adopted payload: its kind may be unrecognised (R76). -/
def adoptStatus (c : Configuration) (p : List Byte) : Status :=
  if (kindOf c p).isSome then .ok else .unsupportedInstruction

/-- Validation and adoption of a buffer (R76). -/
def State.validate (s : State) (b : List Byte) (now : Word) : Out :=
  match chooseSample s.cfg b with
  | some v =>
    .next ((s.adopt (plainPayload s.cfg b v) v now).respond (adoptStatus s.cfg (plainPayload s.cfg b v)) (.buffer b))
  | none => s.fail (checkStatus (check s.cfg b 0)) (.buffer b)

/-- The checksum-stamping mode (R76): sample 0's checksum byte written. -/
def stamp (c : Configuration) (b : List Byte) : List Byte := b.set c.payloadBytes (checksum c (pay c b 0))

/-- ISVALID with `stamp = 0` (R76). -/
def execIsvalid (b : List Byte) (now : Word) (s : State) : Out := s.heatPumpOnly (s.validate b now)

/-- ISVALID with `stamp = 1` (R76). -/
def execIsvalidS (b : List Byte) (now : Word) (s : State) : Out := s.heatPumpOnly (s.validate (stamp s.cfg b) now)

/-- GETMSG (R77). -/
def execGetmsg (s : State) : Out :=
  s.heatPumpOnly
    ({ s with cm := build s.cfg (pay s.cfg s.cm 0) }.complete (.buffer (build s.cfg (pay s.cfg s.cm 0))))

/-- The payload whose instruction byte is `b0` and whose other bits are 0. -/
def blankPayload (c : Configuration) (b0 : Byte) : List Byte := b0 :: List.replicate (c.payloadBytes - 1) 0

/-- The message OPTCMD builds (R99), or none for an option outside `OPTION_SET`. -/
def optionMessage (c : Configuration) (o : Byte) : Option (List Byte) :=
  if c.optionSet.contains o then
    some (build c (putField (blankPayload c (c.markerValue ||| c.kindOption)) c.fieldMap.option o.toNat))
  else none

/-- OPTCMD (R99): no codec state is written. -/
def execOptcmd (o : Byte) (s : State) : Out :=
  s.heatPumpOnly
    (match optionMessage s.cfg o with
    | some m => s.complete (.buffer m)
    | none => s.fail .invalidField .empty)

/-- One field copied from a payload into another. -/
def carryField (src dst : List Byte) (f : Field) : List Byte := putField dst f (getField src f)

/-- The payload FMCMD builds (R100): the snapshot's five Command fields carried over, its kind made FollowMe, every
other bit cleared, the lifecycle state and the temperature written. -/
def followMePayload (c : Configuration) (p : List Byte) (st : FmState) (t : Int) : List Byte :=
  let carried := (commandFields c.fieldMap).foldl (carryField p)
    (blankPayload c ((p.headD 0 &&& ~~~c.kindMask) ||| c.kindFollowMe))
  putField (putField carried c.fieldMap.fmState (fmStateCodeOf c st)) c.fieldMap.fmTemp (tempCode c.fmTempOffset t)

/-- FMCMD (R100, R135): the snapshot, then its kind, then the operands. -/
def execFmcmd (prev : List Byte) (st : Option FmState) (t : Int) (s : State) : Out :=
  s.heatPumpOnly
    (match chooseSample s.cfg prev with
    | none => s.fail (checkStatus (check s.cfg prev 0)) .empty
    | some v =>
      if isOfKind s.cfg (plainPayload s.cfg prev v) commandKinds && inRange s.cfg.fmTempMin s.cfg.fmTempMax t then
        match st with
        | some st => s.complete (.buffer (build s.cfg (followMePayload s.cfg (plainPayload s.cfg prev v) st t)))
        | none => s.fail .invalidField .empty
      else s.fail .invalidField .empty)

/-- GETSEQ (R101). -/
def execGetseq (s : State) : Out := s.heatPumpOnly (s.complete (.word s.seqNo))

/-- GETTS (R102). -/
def execGetts (s : State) : Out := s.heatPumpOnly (s.complete (.word s.lastSampleTime))

/-- GETKIND (R79). -/
def execGetkind (s : State) : Out :=
  s.heatPumpOnly
    (match s.kind? with
    | some k => s.complete (.kind k)
    | none => s.fail .unsupportedInstruction (.code (kindCode s.cfg (pay s.cfg s.cm 0)).toNat))

end Sys2Proof.Machine
end

