-- ==== Sys2Proof/Machine/Scanner.lean ====
section
/-! DEFINITION. The diagnostic property scanner: SCANSTART, SCANTICK, PROPSNAP (spec/45_scanner.md). -/

namespace Sys2Proof.Machine

/-- `Enter` (R114). -/
def State.enterPass (s : State) : State :=
  { s with
    props := List.replicate 27 0
    scanIndex := 0
    scanRemaining := s.cfg.queueLen
    scanState := if 0 < s.cfg.queueLen then .stepping else .awaitingLabel }

/-- A completed pass is still cooling down (R115, D64). -/
def State.coolingDown (s : State) (now : Word) : Bool := s.passDone && decide (now - s.passEndTime < s.cfg.cooldown)

/-- The periodic entry is due (R116): an interval is configured and has elapsed. -/
def State.intervalElapsed (s : State) (now : Word) : Bool :=
  match s.cfg.scanInterval with
  | some d => decide (d ≤ now - s.passEndTime)
  | none => false

/-- SCANSTART (R115). -/
def execScanstart (now : Word) (s : State) : Out :=
  s.heatPumpOnly
    (if s.scanState ≠ .idle ∨ s.coolingDown now = true then s.fail .busy .empty
    else s.enterPass.complete .empty)

/-- `Emit(o)` (R116): OPTCMD then SEND with `wait = 0` inside this step; none when the transmitter is busy. An option
outside `OPTION_SET`, which no well-formed configuration has, is not emitted either (notes/assumptions/23.md). -/
def State.emitOption (s : State) (o : Byte) : Option State :=
  if s.txActive then none else (optionMessage s.cfg o).map s.startTransmission

/-- The option command of the queue's head (R114): command `k = Q - scanRemaining`. -/
def State.queuedOption (s : State) : Byte :=
  if s.cfg.queueLen - s.scanRemaining < s.cfg.nSelect then s.cfg.optSelect else s.cfg.optAdvance

/-- The displayed text is the label expected now (R116). -/
def State.showsLabel (s : State) : Bool := s.displayText == s.cfg.labels.getD s.scanIndex []

/-- A tick in Idle (R116). -/
def State.tickIdle (s : State) (now : Word) : Out :=
  if s.intervalElapsed now && !s.coolingDown now then s.enterPass.complete (.scanOut false false false)
  else s.complete (.scanOut false false false)

/-- A tick in Stepping (R116). -/
def State.tickStepping (s : State) : Out :=
  match s.emitOption s.queuedOption with
  | none => s.complete (.scanOut false false false)
  | some s' =>
    { s' with
      scanRemaining := s.scanRemaining - 1
      scanState := if s.scanRemaining - 1 = 0 then .awaitingLabel else .stepping }.complete (.scanOut true false false)

/-- A tick in AwaitingLabel (R116). -/
def State.tickLabel (s : State) (now : Word) : Out :=
  if s.showsLabel then
    { s with labelSeenAt := now, scanState := .awaitingValue }.complete (.scanOut false false false)
  else s.complete (.scanOut false false false)

/-- The capture of a value, the advance command already emitted (R116). -/
def State.capture (s : State) (now : Word) : Out :=
  let stored := { s with
    props := s.props.set s.scanIndex (BitVec.ofInt 32 (alphaToInt s.displayText))
    scanIndex := s.scanIndex + 1 }
  if 27 ≤ s.scanIndex + 1 then
    { stored with scanState := .idle, passEndTime := now, passDone := true }.complete (.scanOut true true true)
  else { stored with scanState := .awaitingLabel }.complete (.scanOut true true false)

/-- A tick in AwaitingValue (R116): the label test, the blank test, the debounce test, then the transmitter. -/
def State.tickValue (s : State) (now : Word) : Out :=
  if s.showsLabel then { s with labelSeenAt := now }.complete (.scanOut false false false)
  else if isBlank s.displayText || decide (now - s.labelSeenAt ≤ s.cfg.debounce) then
    s.complete (.scanOut false false false)
  else
    match s.emitOption s.cfg.optAdvance with
    | none => s.complete (.scanOut false false false)
    | some s' => s'.capture now

/-- SCANTICK (R116). -/
def execScantick (now : Word) (s : State) : Out :=
  s.heatPumpOnly
    (match s.scanState with
    | .idle => s.tickIdle now
    | .stepping => s.tickStepping
    | .awaitingLabel => s.tickLabel now
    | .awaitingValue => s.tickValue now)

/-- PROPSNAP (R117). -/
def execPropsnap (s : State) : Out :=
  s.heatPumpOnly (s.complete (.properties (s.cfg.labels.zip (s.props.map BitVec.toInt))))

end Sys2Proof.Machine
end

