-- ==== Sys2Proof/Machine/Flags.lean ====
section
/-! DEFINITION. The status words of spec/10_state.md R19 and the 8-bit status codes of spec/60_exceptions.md R127. No
operation computes a condition code (R18). -/

namespace Sys2Proof.Machine

/-- The code of a status (R127). Codes 11 to 255 are unused. -/
def Status.code : Status → Byte
  | .ok => 0
  | .none => 1
  | .busy => 2
  | .malformedFrame => 3
  | .checksumMismatch => 4
  | .invalidMarker => 5
  | .unsupportedInstruction => 6
  | .invalidField => 7
  | .illegalOp => 8
  | .resourceExhaustion => 9
  | .spuriousEdge => 10

/-- The 8-bit status that a response puts on the command port (spec/30_encoding.md R35). -/
def Response.statusByte (r : Response) : Byte := r.status.code

/-- A flag at bit `k` of a word. -/
def flagAt (b : Bool) (k : Nat) : Word := if b then 1#32 <<< k else 0

/-- The code of the scanner's state in FLAGS bits 9:8. -/
def scanCode : ScanState → Word
  | .idle => 0
  | .stepping => 1
  | .awaitingLabel => 2
  | .awaitingValue => 3

/-- FLAGS (R19, selector 0). -/
def State.flags (s : State) : Word :=
  flagAt s.listening 0 ||| flagAt s.received 1 ||| flagAt (s.rxState == .message) 2 ||| flagAt s.txActive 3 |||
  flagAt s.txPin 4 ||| flagAt s.dListening 5 ||| flagAt s.dReady 6 ||| flagAt s.validSample 7 |||
  (scanCode s.scanState <<< 8) ||| flagAt s.passDone 10

/-- The status word of a selector (R19); none for the reserved selectors 11 to 255. -/
def State.statusWord (s : State) (sel : Byte) : Option Word :=
  match sel.toNat with
  | 0 => some s.flags
  | 1 => some s.edgeCount
  | 2 => some s.repeatEdgeCount
  | 3 => some (BitVec.ofNat 32 s.wrIdx)
  | 4 => some (BitVec.ofNat 32 s.preambleIdx)
  | 5 => some (BitVec.ofNat 32 s.txIdx)
  | 6 => some s.txCompare
  | 7 => some s.lastEdgeTime
  | 8 => some (BitVec.ofNat 32 s.scanIndex)
  | 9 => some (BitVec.ofNat 32 s.scanRemaining)
  | 10 => some (BitVec.ofNat 32 (s.dBytePos.val * 8 + s.dBitPos.val))
  | _ => none

end Sys2Proof.Machine
end

