-- ==== Sys2Proof/Machine/System.lean ====
section
/-! DEFINITION. The SYS unit: NOP, RESET, STATUS (spec/46_system_ops.md R119 to R121), TWMK, TWIN
(spec/40_tolerance_descriptor.md R53, R54). -/

namespace Sys2Proof.Machine

/-- NOP (R119). -/
def execNop (s : State) : Out := s.complete .empty

/-- RESET (R120): a well-formed record constructs the block anew; an ill-formed one changes nothing. What lies outside
the block stays: the requests offered to it and what it has already put out. -/
def execReset (config : Configuration) (s : State) : Out :=
  if wellFormedConfig config then
    State.complete
      { State.construct config with inbox := s.inbox, responses := s.responses, toggles := s.toggles } .empty
  else s.fail .resourceExhaustion .empty

/-- STATUS (R121, spec/10_state.md R19). -/
def execStatus (sel : Byte) (s : State) : Out :=
  match s.statusWord sel with
  | some w => s.complete (.word w)
  | none => s.fail .invalidField (.word 0)

/-- TWMK (R53): ε outside (0,1) is INVALID_FIELD, an upper bound past `u32` RESOURCE_EXHAUSTION. Where both apply, ε is
tested first (DESIGN CHOICE, notes/assumptions/29.md: R53 gives no order). -/
def execTwmk (nominal epsNum epsDen : Word) (s : State) : Out :=
  if epsNum = 0 ∨ epsDen = 0 ∨ epsDen.toNat ≤ epsNum.toNat then s.fail .invalidField .empty
  else match mkWindow nominal epsNum.toNat epsDen.toNat with
    | some w => s.complete (.window w)
    | none => s.fail .resourceExhaustion .empty

/-- TWIN (R54). -/
def execTwin (w : Window) (d : Word) (s : State) : Out := s.complete (.bit (inWin w d))

end Sys2Proof.Machine
end

