-- ==== Sys2Proof/Machine/Transmit.lean ====
section
/-! DEFINITION. The transmit side: SEND, SEND.W and the event TXCMP (spec/41_transceiver_tx.md). -/

namespace Sys2Proof.Machine

/-- SEND with `wait = 0` (R59, R60). -/
def execSend (m : List Byte) (s : State) : Out :=
  if s.txActive then s.fail .busy .empty else (s.startTransmission m).complete .empty

/-- SEND with `wait = 1` (R59, R60): the response is withheld until TXCMP clears `hostBlocked` (R61, R136). -/
def execSendW (m : List Byte) (s : State) : Out :=
  if s.txActive then s.fail .busy .empty else .next { s.startTransmission m with hostBlocked := true }

/-- The response a blocked host receives when its transmission ends (R136). -/
def State.releaseHost (s : State) : State :=
  if s.hostBlocked then { s with hostBlocked := false }.respond .ok .empty else s

/-- TXCMP (R61): the next table entry, or the end of the transmission; nothing while the timer is disabled (R133). -/
def execTxcmp (s : State) : Out :=
  if s.txActive then
    if s.txIdx + 1 < s.cfg.tableLen then
      .next ({ s with
        txIdx := s.txIdx + 1
        txPin := !s.txPin
        txCompare := s.txTable.getD (s.txIdx + 1) 0 }.emitToggle (!s.txPin) (s.txTable.getD (s.txIdx + 1) 0))
    else .next { s with txIdx := s.txIdx + 1, txActive := false }.releaseHost
  else .next s

end Sys2Proof.Machine
end

