-- ==== Sys2Proof/Machine/Wire.lean ====
section
/-! DEFINITION. The three kinds of heat-pump message on the infrared wire (spec/30_encoding.md R42, R43; rows MSG.* of
spec/opcode_table.json). A message is no operation of its own: it is a train of `N` pulses (R38) and acts on the block
through one RXEDGE per transition (spec/41_transceiver_tx.md R62; notes/assumptions/12.md). -/

namespace Sys2Proof.Machine

/-- A Command message on the wire. -/
def execMsgCommand (buf : List Byte) (now : Word) (s : State) : Out := .next (s.deliverMessage buf now)

/-- An Option message on the wire. -/
def execMsgOption (buf : List Byte) (now : Word) (s : State) : Out := .next (s.deliverMessage buf now)

/-- A FollowMe message on the wire. -/
def execMsgFollowme (buf : List Byte) (now : Word) (s : State) : Out := .next (s.deliverMessage buf now)

end Sys2Proof.Machine
end

