-- ==== Sys2Proof/Machine/Dispatch.lean ====
section
/-! DEFINITION. One arm per row of spec/opcode_table.json. -/

namespace Sys2Proof.Machine

def exec (i : Instr) (s : State) : Host.Outcome State Fault Refusal :=
  match i with
  | .nop => Sys2Proof.Machine.execNop s
  | .reset config => Sys2Proof.Machine.execReset config s
  | .status sel => Sys2Proof.Machine.execStatus sel s
  | .twmk nominal epsNum epsDen => Sys2Proof.Machine.execTwmk nominal epsNum epsDen s
  | .twin w d => Sys2Proof.Machine.execTwin w d s
  | .send m => Sys2Proof.Machine.execSend m s
  | .sendW m => Sys2Proof.Machine.execSendW m s
  | .listen => Sys2Proof.Machine.execListen s
  | .listenstop => Sys2Proof.Machine.execListenstop s
  | .chkmsg => Sys2Proof.Machine.execChkmsg s
  | .isvalid b now => Sys2Proof.Machine.execIsvalid b now s
  | .isvalidS b now => Sys2Proof.Machine.execIsvalidS b now s
  | .getmsg => Sys2Proof.Machine.execGetmsg s
  | .optcmd o => Sys2Proof.Machine.execOptcmd o s
  | .fmcmd prev st t => Sys2Proof.Machine.execFmcmd prev st t s
  | .getseq => Sys2Proof.Machine.execGetseq s
  | .getts => Sys2Proof.Machine.execGetts s
  | .getkind => Sys2Proof.Machine.execGetkind s
  | .getPower => Sys2Proof.Machine.execGetPower s
  | .setPower v => Sys2Proof.Machine.execSetPower v s
  | .getMode => Sys2Proof.Machine.execGetMode s
  | .setMode m => Sys2Proof.Machine.execSetMode m s
  | .getFan => Sys2Proof.Machine.execGetFan s
  | .setFan f => Sys2Proof.Machine.execSetFan f s
  | .getSleep => Sys2Proof.Machine.execGetSleep s
  | .setSleep v => Sys2Proof.Machine.execSetSleep v s
  | .getTemp => Sys2Proof.Machine.execGetTemp s
  | .setTemp t => Sys2Proof.Machine.execSetTemp t s
  | .getOption => Sys2Proof.Machine.execGetOption s
  | .setOption o => Sys2Proof.Machine.execSetOption o s
  | .getFmtemp => Sys2Proof.Machine.execGetFmtemp s
  | .setFmtemp t => Sys2Proof.Machine.execSetFmtemp t s
  | .getFmstate => Sys2Proof.Machine.execGetFmstate s
  | .setFmstate st => Sys2Proof.Machine.execSetFmstate st s
  | .dlisten => Sys2Proof.Machine.execDlisten s
  | .dlistenstop => Sys2Proof.Machine.execDlistenstop s
  | .hasupd => Sys2Proof.Machine.execHasupd s
  | .ascii => Sys2Proof.Machine.execAscii s
  | .a2i text => Sys2Proof.Machine.execA2i text s
  | .scanstart now => Sys2Proof.Machine.execScanstart now s
  | .scantick now => Sys2Proof.Machine.execScantick now s
  | .propsnap => Sys2Proof.Machine.execPropsnap s
  | .rxedge now => Sys2Proof.Machine.execRxedge now s
  | .txcmp => Sys2Proof.Machine.execTxcmp s
  | .dclk data => Sys2Proof.Machine.execDclk data s
  | .dstb => Sys2Proof.Machine.execDstb s
  | .msgCommand buf now => Sys2Proof.Machine.execMsgCommand buf now s
  | .msgOption buf now => Sys2Proof.Machine.execMsgOption buf now s
  | .msgFollowme buf now => Sys2Proof.Machine.execMsgFollowme buf now s

end Sys2Proof.Machine
end

