-- ==== Sys2Proof/Machine/Selection.lean ====
section
/-! DEFINITION. Which request the next step takes (spec/20_memory.md R29, R32; spec/41_transceiver_tx.md R63;
spec/60_exceptions.md R136; notes/assumptions/1.md, 10.md, 11.md). -/

namespace Sys2Proof.Machine

/-- A request that the host's thread must issue. -/
def isCommand : Request → Bool
  | .command _ => true
  | .event _ => false
  | .wire _ => false
  | .turn => false

/-- The first request that is no command, and the inbox without it (R63: while the host is held only events step; the
commands keep their places). -/
def firstNonCommand : List Request → Option (Request × List Request)
  | [] => none
  | r :: rs =>
    if isCommand r then (firstNonCommand rs).map fun p => (p.1, r :: p.2) else some (r, rs)

/-- What the next step does. -/
inductive Turn where
  /-- Nothing is there to take. -/
  | quiet
  /-- The host's thread does the next sub-step of its HASUPD. -/
  | resume (s : State)
  /-- A request is taken. -/
  | take (r : Request) (s : State)
deriving DecidableEq, Repr

/-- The turn while a HASUPD is in progress (R32): an event or a message at the head of the inbox comes between; a host
turn, a command that must wait, and an empty inbox let the HASUPD go on. -/
def nextDuringHasupd (s : State) : Turn :=
  match s.inbox with
  | [] => .resume s
  | .command _ :: _ => .resume s
  | .turn :: rs => .resume { s with inbox := rs }
  | .event b :: rs => .take (.event b) { s with inbox := rs }
  | .wire b :: rs => .take (.wire b) { s with inbox := rs }

/-- The turn while the host is held by a SEND.W (R63, R136). -/
def nextWhileBlocked (s : State) : Turn :=
  match firstNonCommand s.inbox with
  | none => .quiet
  | some (r, rs) => .take r { s with inbox := rs }

/-- The turn of a free host: the first request. -/
def nextFree (s : State) : Turn :=
  match s.inbox with
  | [] => .quiet
  | r :: rs => .take r { s with inbox := rs }

/-- What the next step does. -/
def nextTurn (s : State) : Turn :=
  match s.hasupd with
  | .idle => if s.hostBlocked then nextWhileBlocked s else nextFree s
  | .cleared => nextDuringHasupd s
  | .read0 _ => nextDuringHasupd s
  | .read1 _ _ => nextDuringHasupd s

/-- A wire message whose instruction byte is no known kind: its pulses reach the receive pin all the same (R43, R62). -/
def unrecognisedMessage (r : Request) (s : State) : Out :=
  match r with
  | .wire b =>
    match readStamped s.cfg.msgLen b with
    | some ((buf, now), _) => .next (s.deliverMessage buf now)
    | none => .fault .truncatedBundle
  | .command _ => .next s
  | .event _ => .next s
  | .turn => .next s

/-- A request put at the head of the inbox; a host that is to issue a command is released from what holds it. -/
def State.offerFirst (s : State) (r : Request) : State :=
  if isCommand r then { s with inbox := r :: s.inbox, hostBlocked := false, hasupd := .idle }
  else { s with inbox := r :: s.inbox }

end Sys2Proof.Machine
end

