-- ==== Sys2Proof/Machine/Step.lean ====
section
/-! DEFINITION. One step of the block: the next request, decoded and run (spec/00_scope.md R9; spec/20_memory.md R29,
R32; spec/60_exceptions.md R135, R136). -/

namespace Sys2Proof.Machine

/-- The effect of a request taken from the inbox: the operation it decodes to; ILLEGAL_OP for an unassigned code
(R122); a wire message of an unrecognised kind is a train of pulses like any other (R43, R62); a host turn with nothing
in progress has no effect. -/
def runRequest (r : Request) (s : State) : Out :=
  match decode s.cfg r with
  | .instr i => exec i s
  | .rejected .unassignedCode => illegalOp s
  | .rejected .unrecognisedKind => unrecognisedMessage r s
  | .rejected .noOperation => .next s
  | .rejected .truncated => .fault .truncatedBundle

/-- One step. With nothing to take the block stays as it is (notes/assumptions/1.md). -/
def step (s : State) : Host.Outcome State Fault Refusal :=
  match nextTurn s with
  | .quiet => .next s
  | .resume s' => exec .hasupd s'
  | .take r s' => runRequest r s'

/-- The state in which the next step runs the instruction of a table word: its request is at the head of the inbox, and
for a command the host is free to issue it (R136, R32). -/
def State.withFetchWord (s : State) (nbits w : Nat) : State := s.offerFirst (tableRequest s.cfg nbits w)

end Sys2Proof.Machine
end

