-- ==== Sys2Proof/Safety.lean ====
section
/-! DEFINITION. The states a run from a construction stays in (spec/10_state.md R11 to R15: the ranges of every
element; spec/42_transceiver_rx.md R68; spec/44_display.md R112), and the terms the statements use. -/

namespace Sys2Proof.Machine

/-- The receiver's counters (R64, R68): nothing counted in Preamble; at most `T` edges while a message is coming in; one
more when it is pending. -/
def State.receiverOk (s : State) : Prop :=
  match s.rxState with
  | .preamble => s.edgeCount = 0 ∧ s.repeatEdgeCount = 0 ∧ s.received = false
  | .message =>
    s.repeatEdgeCount ≤ s.edgeCount ∧ s.cfg.syncCount ≤ s.edgeCount.toNat ∧
      if s.received then s.edgeCount.toNat = s.cfg.threshold + 1 ∧ s.listening = false
      else s.edgeCount.toNat ≤ s.cfg.threshold

/-- The scanner's indices (R15, R113). -/
def State.scannerOk (s : State) : Prop :=
  match s.scanState with
  | .idle => s.scanIndex ≤ 27 ∧ s.scanRemaining = 0
  | .stepping => s.scanIndex = 0 ∧ 0 < s.scanRemaining ∧ s.scanRemaining ≤ s.cfg.queueLen
  | .awaitingLabel => s.scanIndex < 27 ∧ s.scanRemaining = 0
  | .awaitingValue => s.scanIndex < 27 ∧ s.scanRemaining = 0

/-- The marker and the kinds lie inside their masks: what R43 presupposes and R5 does not ask for
(notes/assumptions/8.md). A configuration without it is well-formed, but no message of it validates or tells its kind. -/
def instructionByteFits (c : Configuration) : Prop :=
  c.markerValue &&& ~~~c.markerMask = 0 ∧
    ∀ k ∈ [c.kindCommand, c.kindOption, c.kindFollowMe], k &&& ~~~c.kindMask = 0

/-- The invariant of the block: its configuration is well-formed (R6), every store has its length and every index its
range (R11 to R15), the flags agree with each other. -/
structure State.Inv (s : State) : Prop where
  config      : wellFormedConfig s.cfg = true
  configFits  : s.cfg.encodable = true
  ringLen     : s.ring.length = s.cfg.ringCap
  wrIdxLt     : s.wrIdx < s.cfg.ringCap
  preambleLt  : s.preambleIdx < s.cfg.ringCap
  msgBufLen   : s.msgBuf.length = s.cfg.msgLen
  tableLen    : s.txTable.length = s.cfg.tableLen
  txIdxLe     : s.txIdx ≤ s.cfg.tableLen
  txIdxLt     : s.txActive = true → s.txIdx < s.cfg.tableLen
  blocked     : s.hostBlocked = true → s.txActive = true
  receiver    : s.receiverOk
  cmLen       : s.cm.length = s.cfg.msgLen
  marker      : s.cfg.variant = .heatPump → instructionByteFits s.cfg →
    s.cm.headD 0 &&& s.cfg.markerMask = s.cfg.markerValue
  shadow      : s.dShadow.masked = s.dShadow
  sampler     : s.dByte.toNat < 2 ^ s.dBitPos.val
  frameDone   : s.dBytePos = 3 → s.dBitPos = 0
  scanner     : s.scannerOk
  propsLen    : s.props.length = 27
  hasupdSplit : s.hasupd ≠ .idle → s.cfg.hasupdAtomic = false

/-- The host's thread is free to issue a command (R63, R32). -/
def State.hostFree (s : State) : Prop := s.hostBlocked = false ∧ s.hasupd = .idle

/-- The codec works: the variant is the heat-pump protocol (R71). -/
def State.isHeatPump (s : State) : Prop := s.cfg.variant = .heatPump

/-- A duration lies in a window (R54), as a proposition. -/
def InWindow (w : Window) (d : Word) : Prop := w.lo.toNat ≤ d.toNat ∧ d.toNat ≤ w.hi.toNat

/-- `k` events or operations one after another, nothing between (each is one step, R9). -/
def execAll : List Instr → State → Out
  | [], s => .next s
  | i :: is, s =>
    match exec i s with
    | .next s' => execAll is s'
    | .fault f => .fault f
    | .refused r => .refused r

/-- The operations of the codec family (43_codec.md). -/
def isCodecOp : Instr → Bool
  | .isvalid _ _ | .isvalidS _ _ | .getmsg | .optcmd _ | .fmcmd _ _ _ | .getseq | .getts | .getkind => true
  | .getPower | .setPower _ | .getMode | .setMode _ | .getFan | .setFan _ | .getSleep | .setSleep _ => true
  | .getTemp | .setTemp _ | .getOption | .setOption _ | .getFmtemp | .setFmtemp _ | .getFmstate => true
  | .setFmstate _ => true
  | .nop | .reset _ | .status _ | .twmk _ _ _ | .twin _ _ => false
  | .send _ | .sendW _ | .listen | .listenstop | .chkmsg => false
  | .dlisten | .dlistenstop | .hasupd | .ascii | .a2i _ | .scanstart _ | .scantick _ | .propsnap => false
  | .rxedge _ | .txcmp | .dclk _ | .dstb | .msgCommand _ _ | .msgOption _ _ | .msgFollowme _ _ => false

/-- The operations that may write the owned message (spec/10_state.md R13: ISVALID, SET.*; GETMSG rewrites its derived
bytes, R28; RESET constructs it). -/
def writesMessage : Instr → Bool
  | .isvalid _ _ | .isvalidS _ _ | .getmsg | .setPower _ | .setMode _ | .setFan _ | .setSleep _ | .setTemp _ => true
  | .setOption _ | .setFmtemp _ | .setFmstate _ | .reset _ => true
  | .optcmd _ | .fmcmd _ _ _ | .getseq | .getts | .getkind | .getPower | .getMode | .getFan | .getSleep => false
  | .getTemp | .getOption | .getFmtemp | .getFmstate | .nop | .status _ | .twmk _ _ _ | .twin _ _ => false
  | .send _ | .sendW _ | .listen | .listenstop | .chkmsg => false
  | .dlisten | .dlistenstop | .hasupd | .ascii | .a2i _ | .scanstart _ | .scantick _ | .propsnap => false
  | .rxedge _ | .txcmp | .dclk _ | .dstb | .msgCommand _ _ | .msgOption _ _ | .msgFollowme _ _ => false

/-- The operations that count and stamp an adopted message (R13: `seqNo`, `lastSampleTime`, `validSample`), and RESET. -/
def adoptsMessage : Instr → Bool
  | .isvalid _ _ | .isvalidS _ _ | .reset _ => true
  | .getmsg | .setPower _ | .setMode _ | .setFan _ | .setSleep _ | .setTemp _ | .setOption _ | .setFmtemp _ => false
  | .setFmstate _ => false
  | .optcmd _ | .fmcmd _ _ _ | .getseq | .getts | .getkind | .getPower | .getMode | .getFan | .getSleep => false
  | .getTemp | .getOption | .getFmtemp | .getFmstate | .nop | .status _ | .twmk _ _ _ | .twin _ _ => false
  | .send _ | .sendW _ | .listen | .listenstop | .chkmsg => false
  | .dlisten | .dlistenstop | .hasupd | .ascii | .a2i _ | .scanstart _ | .scantick _ | .propsnap => false
  | .rxedge _ | .txcmp | .dclk _ | .dstb | .msgCommand _ _ | .msgOption _ _ | .msgFollowme _ _ => false

/-- The eight clock edges that carry a display byte, least significant bit first (spec/30_encoding.md R47). -/
def clockByte (b : Byte) : List Instr := (List.range 8).map fun k => .dclk (b.getLsbD k)

/-- The cross-field invariants I1 and I2 of spec/43_codec.md R82, on the decoded values. -/
def State.crossFieldOk (s : State) : Prop :=
  ((s.mode? = some .auto ∨ s.mode? = some .dry) → fanOfCode s.cfg (s.field (·.fan)) = some .auto) ∧
  (s.field (·.sleep) = 1 → s.field (·.power) = 1 ∧ s.mode? ≠ some .fan ∧ s.mode? ≠ some .dry)

/-- `Emit(o)` of R116 told by OPTCMD and SEND themselves: OPTCMD `o` answers a buffer, SEND of it succeeds, and the state
is the one SEND leaves, but for its response. -/
def State.emits (s : State) (o : Byte) (t : State) : Prop :=
  ∃ (m : List Byte) (u v : State), exec (.optcmd o) s = .next u ∧ u.responses = s.responses ++ [⟨.ok, .buffer m⟩] ∧
    exec (.send m) s = .next v ∧ v.responses = s.responses ++ [⟨.ok, .empty⟩] ∧ t = { v with responses := s.responses }

end Sys2Proof.Machine
end

