-- ==== Sys2Proof/Certificates/Slice0/Obligations.lean ====
section
/-! DEFINITION. The statements about this machine. Each docstring names the rule of spec/ it formalises. A statement
about an operation gives the whole next state: what is not named in the update is unchanged (the operation's frame). -/

open Sys2Proof Sys2Proof.Machine

/-! ### Decoding and encoding -/

/-- For every configuration and every operation its ports can carry, the decoder reads the operation back from its
encoding (R35, R36, R37, R43; the packing of operands is the model's, notes/assumptions/2.md). -/
def Obligations.DecodeEncodeAgree : Prop :=
  ∀ (c : Configuration) (i : Instr), i.wellFormed c = true → decode c (requestOf i) = .instr i

/-- Whatever bytes are offered, what the decoder accepts has the operand shapes of R37. The byte layout and the ranges of
its numbers (32 bits) are the model's packing, notes/assumptions/2.md (DESIGN CHOICE). -/
def Obligations.DecodedOperationsAreWellFormed : Prop :=
  ∀ (c : Configuration) (r : Request) (i : Instr), decode c r = .instr i → i.wellFormed c = true

/-- Words written out decode to their operations. Their codes are those of R36 and R37; their operand bytes are laid out
by the model's packing, notes/assumptions/2.md (DESIGN CHOICE). -/
def Obligations.SampleWordsDecode : Prop :=
  decode .refHp (.command [0x22]) = .instr .listen ∧
  decode .refHp (.command [0x02, 0x0A]) = .instr (.status 10) ∧
  decode .refHp (.command [0x46]) = .instr .getts ∧
  decode .refHp (.command [0x4F, 0x01]) = .instr (.setSleep true) ∧
  decode .refHp (.command [0x82]) = .instr .propsnap ∧
  decode .refHp (.event [0x01]) = .instr .txcmp ∧
  decode .refHp (.event [0x02, 0x01]) = .instr (.dclk true)

/-! ### The step -/

/-- A step runs the decoded operation: the request at the head of the inbox is taken and its operation executed; while
a SEND.W or a split HASUPD holds the host, an event or a wire message at the head runs all the same. Beside it stand four
more cases, which are the model's choice: nothing offered and a HASUPD that goes on (notes/assumptions/1.md, 10.md), a
host turn (10.md), a bundle that ends too early (17.md), a wire message of no known kind, which does what one of a known
kind does (12.md). The two other cases are statements of their own: commands that wait behind a SEND.W are
BlockedHostIssuesNoCommand (O5), an unassigned code at the head is UnassignedCodesAreIllegal (O6). -/
def Obligations.StepRunsTheDecodedOperation : Prop :=
  ∀ s : State,
    (∀ (r : Request) (rest : List Request) (i : Instr),
      s.inbox = r :: rest → decode s.cfg r = .instr i → (s.hostFree ∨ portOf i ≠ .command) →
      step s = exec i { s with inbox := rest }) ∧
    (s.inbox = [] → s.hasupd = .idle → step s = .next s) ∧
    (s.inbox = [] ∨ (∃ b rest, s.inbox = .command b :: rest) → s.hasupd ≠ .idle → step s = exec .hasupd s) ∧
    (∀ rest, s.inbox = .turn :: rest →
      step s = if s.hasupd = .idle then .next { s with inbox := rest } else exec .hasupd { s with inbox := rest }) ∧
    (∀ (r : Request) (rest : List Request), s.inbox = r :: rest → decode s.cfg r = .rejected .truncated →
      (s.hostFree ∨ isCommand r = false) → step s = .fault .truncatedBundle) ∧
    (∀ (buf extra : List Byte) (now : Word) (rest : List Request),
      s.inbox = .wire (buf ++ putWord now ++ extra) :: rest → buf.length = s.cfg.msgLen → wireKind s.cfg buf = none →
      step s = exec (.msgCommand buf now) { s with inbox := rest })

/-- While the host is held by a SEND.W the commands wait in their places and the first other request runs (R63, R136);
with none the block stays as it is. -/
def Obligations.BlockedHostIssuesNoCommand : Prop :=
  ∀ (s : State) (waiting : List (List Byte)), s.hostBlocked = true → s.hasupd = .idle →
    (s.inbox = waiting.map Request.command → step s = .next s) ∧
    (∀ (r : Request) (rest : List Request), s.inbox = waiting.map Request.command ++ r :: rest →
      isCommand r = false →
      step s = runRequest r { s with inbox := waiting.map Request.command ++ rest })

/-- Every operation code R37 leaves unassigned answers ILLEGAL_OP and changes nothing (R122, R48). -/
def Obligations.UnassignedCodesAreIllegal : Prop :=
  ∀ (s : State) (op : Byte) (operands : List Byte) (rest : List Request),
    s.hostFree → s.inbox = .command (op :: operands) :: rest →
    (op.toNat = 0x03 ∨ (0x06 ≤ op.toNat ∧ op.toNat ≤ 0x1F) ∨ (0x25 ≤ op.toNat ∧ op.toNat ≤ 0x3F) ∨
      (0x58 ≤ op.toNat ∧ op.toNat ≤ 0x5F) ∨ (0x65 ≤ op.toNat ∧ op.toNat ≤ 0x7F) ∨ 0x83 ≤ op.toNat) →
    step s = .next { s with inbox := rest, responses := s.responses ++ [⟨.illegalOp, .empty⟩] }

/-- No operation ends the machine: every one completes, with a status at worst (R127, R132). The 8-bit statuses are
numbered as R127 numbers them, and SPURIOUS_EDGE, number 10, is returned by none (R35, R127, R129). -/
def Obligations.EveryOperationCompletes : Prop :=
  (∀ (i : Instr) (s : State), ∃ t, exec i s = .next t ∧
    (t.responses = s.responses ∨
      ∃ r : Response, t.responses = s.responses ++ [r] ∧ r.statusByte.toNat ≤ 9)) ∧
  (∀ r : Response, r.statusByte = r.status.code) ∧
  ([.ok, .none, .busy, .malformedFrame, .checksumMismatch, .invalidMarker, .unsupportedInstruction, .invalidField,
    .illegalOp, .resourceExhaustion, .spuriousEdge] : List Status).map Status.code = [0, 1, 2, 3, 4, 5, 6, 7, 8, 9, 10]

/-! ### Invariants -/

/-- The state after reset meets the invariant. -/
def Obligations.ResetMeetsTheInvariant : Prop := State.reset.Inv

/-- Every step from a state that meets the invariant, a state no run reaches included, ends in one that meets it. -/
def Obligations.EveryStepKeepsTheInvariant : Prop :=
  ∀ s t : State, s.Inv → step s = .next t → t.Inv

/-- Nothing but a construction changes the configuration, or the pulse table of a transmission in progress (R34: the
table is never written while it is read, and no build or decode can see the descriptor change). -/
def Obligations.RunningTableAndDescriptorStay : Prop :=
  ∀ (i : Instr) (s t : State), (∀ c, i ≠ .reset c) → exec i s = .next t →
    t.cfg = s.cfg ∧ (s.txActive = true → t.txTable = s.txTable)

/-- The codec's state is written by the operations R13 names and no other: no event, no transceiver, display or scanner
operation touches it. -/
def Obligations.OnlyTheCodecWritesTheCodec : Prop :=
  ∀ (i : Instr) (s t : State), exec i s = .next t →
    (writesMessage i = false → t.cm = s.cm) ∧
    (adoptsMessage i = false →
      t.seqNo = s.seqNo ∧ t.lastSampleTime = s.lastSampleTime ∧ t.validSample = s.validSample)

/-- An event whose source is disabled changes nothing (R133). -/
def Obligations.DisabledEventsChangeNothing : Prop :=
  ∀ (s : State) (now : Word) (data : Bool),
    (s.listening = false → exec (.rxedge now) s = .next s) ∧
    (s.txActive = false → exec .txcmp s = .next s) ∧
    (s.dListening = false → exec (.dclk data) s = .next s) ∧
    (s.dListening = false → exec .dstb s = .next s)

/-! ### SYS -/

/-- NOP (R119). -/
def Obligations.NopAnswersOk : Prop :=
  ∀ s : State, exec .nop s = .next { s with responses := s.responses ++ [⟨.ok, .empty⟩] }

/-- RESET (R120): a well-formed record gives every element its reset value, an ill-formed one changes nothing
and is refused. What is ill-formed is then told constraint by constraint: a ring that does not exceed the edges of one
frame (R145); for either variant ε outside (0,1), a count of 0, a missing or a superfluous sync window, no tick or a
duration of 2^32 ticks, a window that R53 does not build, zero, one and break windows with a duration in common, and the
display's and the labels' constraints; for a heat-pump record its sample and bit counts, its masks, its fields, its enum
codes, its temperature codes and its options (R5). That the latter bind that variant alone is notes/assumptions/7.md, what
of the values is not asked and that codes must fit their fields 8.md, the form of the tables 24.md (all DEDUCED); that the
inbox and the toggles stay is 27.md (DESIGN CHOICE). -/
def Obligations.ResetConstructsTheBlock : Prop :=
  ∀ (c : Configuration) (s : State),
    (wellFormedConfig c = true → ∃ t, exec (.reset c) s = .next t ∧ t.cfg = c ∧
      t.ring = List.replicate c.ringCap 0 ∧ t.wrIdx = 0 ∧ t.preambleIdx = 0 ∧ t.lastEdgeTime = 0 ∧
      t.rxState = .preamble ∧ t.edgeCount = 0 ∧ t.repeatEdgeCount = 0 ∧ t.received = false ∧ t.listening = false ∧
      t.msgBuf = List.replicate c.msgLen 0 ∧ t.txTable = List.replicate c.tableLen 0 ∧ t.txIdx = 0 ∧
      t.txCompare = 0 ∧ t.txActive = false ∧ t.hostBlocked = false ∧ t.txPin = false ∧
      (c.variant = .heatPump →
        t.cm = build c ((c.markerValue ||| c.kindCommand) :: List.replicate (c.payloadBytes - 1) 0)) ∧
      t.validSample = false ∧ t.seqNo = 0 ∧ t.lastSampleTime = 0 ∧
      t.dRaw = ⟨0, 0, 0⟩ ∧ t.dShadow = ⟨0, 0, 0⟩ ∧ t.dByte = 0 ∧ t.dBitPos = 0 ∧ t.dBytePos = 0 ∧
      t.dReady = false ∧ t.dListening = false ∧ t.scanState = .idle ∧ t.scanRemaining = 0 ∧ t.scanIndex = 0 ∧
      t.labelSeenAt = 0 ∧ t.passEndTime = 0 ∧ t.passDone = false ∧ t.props = List.replicate 27 0 ∧
      t.hasupd = .idle ∧ t.inbox = s.inbox ∧ t.toggles = s.toggles ∧
      t.responses = s.responses ++ [⟨.ok, .empty⟩]) ∧
    (let refused := exec (.reset c) s =
        .next { s with responses := s.responses ++ [⟨.resourceExhaustion, .empty⟩] }
     let m := c.fieldMap
     let apart := fun (f g : Field) => f.start + f.width ≤ g.start ∨ g.start + g.width ≤ f.start
     let windows := c.syncWindows ++ [c.separatorWindow, c.zeroWindow, c.oneWindow, c.breakWindow]
     (wellFormedConfig c = false → refused) ∧
     (c.ringCap ≤ c.sampleCount * (2 * (c.bitCount + c.brk) + c.syncCount) ∨
        c.ringCap ≤ c.bitCount * 2 * c.sampleCount + c.syncCount + 1 ∨ c.ringCap < c.syncCount → refused) ∧
     (c.epsNum = 0 ∨ c.epsDen ≤ c.epsNum → refused) ∧
     (c.sampleCount = 0 ∨ c.bitCount = 0 ∨ c.syncCount = 0 ∨ c.syncWindows.length ≠ c.syncCount → refused) ∧
     (c.ticksPerUs = 0 ∨ (∃ w ∈ windows, 2 ^ 32 ≤ w.nominal.toNat * c.ticksPerUs) → refused) ∧
     ((∃ w ∈ windows, mkWindow w.nominal c.epsNum c.epsDen ≠ some w) → refused) ∧
     ((∃ d, InWindow c.zeroWindow d ∧ InWindow c.oneWindow d) ∨ (0 < c.breakWindow.nominal.toNat ∧
        ∃ d, InWindow c.breakWindow d ∧ (InWindow c.zeroWindow d ∨ InWindow c.oneWindow d)) → refused) ∧
     (c.blankCode.getLsbD 0 = true ∨ (∃ e ∈ c.segTable, e.1.getLsbD 0 = true ∨ e.2.length ∉ [1, 2]) ∨
        c.labels.length ≠ 27 ∨ (∃ l ∈ c.labels, 2 < l.length) → refused) ∧
     (c.variant = .heatPump →
       (c.sampleCount ≠ 2 ∨ c.bitCount % 8 ≠ 0 ∨ c.bitCount < 16 → refused) ∧
       (c.markerMask ∉ [0xF0, 0x0F] ∨ c.kindMask ∉ [0xF0, 0x0F] ∨ c.markerMask = c.kindMask → refused) ∧
       ((∃ f ∈ commandFields m ++ [m.status, m.time, m.option, m.fmState, m.fmTemp],
           f.start < 8 ∨ 8 * c.payloadBytes < f.start + f.width) ∨
         ¬ (commandFields m ++ [m.status, m.time]).Pairwise apart ∨
         ¬ (commandFields m ++ [m.fmState, m.fmTemp]).Pairwise apart → refused) ∧
       ((∃ x y, x ≠ y ∧ modeCodeOf c x = modeCodeOf c y) ∨ (∃ x y, x ≠ y ∧ fanCodeOf c x = fanCodeOf c y) ∨
         (∃ x y, x ≠ y ∧ fmStateCodeOf c x = fmStateCodeOf c y) → refused) ∧
       ((∃ t ∈ [c.tempMin - c.tempOffset, c.tempMax - c.tempOffset, c.fmTempMin - c.fmTempOffset,
           c.fmTempMax - c.fmTempOffset], t < 0) ∨
         (2 : Int) ^ m.temp.width ≤ c.tempMax - c.tempOffset ∨
         (2 : Int) ^ m.fmTemp.width ≤ c.fmTempMax - c.fmTempOffset → refused) ∧
       (c.optionSet = [] ∨ (∃ o ∈ c.optionSet, 2 ^ m.option.width ≤ o.toNat) ∨ c.optSelect ∉ c.optionSet ∨
         c.optAdvance ∉ c.optionSet → refused)))

/-- STATUS (R121) and the status words of R19, FLAGS bit by bit. That the natural numbers behind selectors 3, 4, 5, 8
and 9 are read modulo 2^32 is notes/assumptions/26.md (DEDUCED). -/
def Obligations.StatusReadsItsWords : Prop :=
  ∀ (s : State) (sel : Byte),
    (∃ flags : Word,
      exec (.status sel) s = .next { s with responses := s.responses ++
        [match ([flags, s.edgeCount, s.repeatEdgeCount, BitVec.ofNat 32 s.wrIdx, BitVec.ofNat 32 s.preambleIdx,
            BitVec.ofNat 32 s.txIdx, s.txCompare, s.lastEdgeTime, BitVec.ofNat 32 s.scanIndex,
            BitVec.ofNat 32 s.scanRemaining,
            BitVec.ofNat 32 (s.dBytePos.val * 8 + s.dBitPos.val)] : List Word)[sel.toNat]? with
          | some w => ⟨.ok, .word w⟩
          | none => ⟨.invalidField, .word 0⟩] } ∧
      flags.getLsbD 0 = s.listening ∧ flags.getLsbD 1 = s.received ∧
      flags.getLsbD 2 = decide (s.rxState = .message) ∧ flags.getLsbD 3 = s.txActive ∧ flags.getLsbD 4 = s.txPin ∧
      flags.getLsbD 5 = s.dListening ∧ flags.getLsbD 6 = s.dReady ∧ flags.getLsbD 7 = s.validSample ∧
      flags.getLsbD 8 = decide (s.scanState = .stepping ∨ s.scanState = .awaitingValue) ∧
      flags.getLsbD 9 = decide (s.scanState = .awaitingLabel ∨ s.scanState = .awaitingValue) ∧
      flags.getLsbD 10 = s.passDone ∧ ∀ k, 11 ≤ k → flags.getLsbD k = false)

/-- TWMK (R53), on exact integers. Where both errors apply the model tests ε first (notes/assumptions/29.md, DESIGN
CHOICE). -/
def Obligations.TwmkBuildsTheWindow : Prop :=
  ∀ (nominal num den : Word) (s : State),
    exec (.twmk nominal num den) s = .next { s with responses := s.responses ++
      [if num.toNat = 0 ∨ den.toNat = 0 ∨ den.toNat ≤ num.toNat then ⟨.invalidField, .empty⟩
       else if 2 ^ 32 ≤ (nominal.toNat * (den.toNat + num.toNat) + den.toNat - 1) / den.toNat then
         ⟨.resourceExhaustion, .empty⟩
       else ⟨.ok, .window ⟨nominal, BitVec.ofNat 32 (nominal.toNat * (den.toNat - num.toNat) / den.toNat),
         BitVec.ofNat 32 ((nominal.toNat * (den.toNat + num.toNat) + den.toNat - 1) / den.toNat)⟩⟩] }

/-- Every window with `nominal ≥ 1` is strict (R55). -/
def Obligations.WindowsContainTheirNominal : Prop :=
  ∀ (nominal : Word) (num den : Nat) (w : Window),
    0 < num → num < den → 1 ≤ nominal.toNat → mkWindow nominal num den = some w →
    w.lo.toNat < w.nominal.toNat ∧ w.nominal.toNat < w.hi.toNat ∧ w.nominal = nominal

/-- TWIN (R54): both ends included, `nominal` not consulted. -/
def Obligations.TwinTestsMembership : Prop :=
  ∀ (w : Window) (d : Word) (s : State),
    exec (.twin w d) s = .next { s with responses := s.responses ++
      [⟨.ok, .bit (decide (w.lo.toNat ≤ d.toNat ∧ d.toNat ≤ w.hi.toNat))⟩] }

/-! ### Message bits -/

/-- The bit-index function and `SetBit` (R40). -/
def Obligations.MessageBitsHaveTheirPlaces : Prop :=
  ∀ (bitCount : Nat) (buf : List Byte) (s b : Nat),
    bitPos bitCount s b = ((s * bitCount + b) / 8, 0x80#8 >>> ((s * bitCount + b) % 8)) ∧
    (getBit bitCount buf s b = true ↔
      buf.getD ((s * bitCount + b) / 8) 0 &&& (0x80#8 >>> ((s * bitCount + b) % 8)) ≠ 0) ∧
    (∀ g i, g / 8 < buf.length →
      (setBitG buf g).getD i 0 = if i = g / 8 then buf.getD i 0 ||| (0x80#8 >>> (g % 8)) else buf.getD i 0)

/-- Fields (R41): `GetField` is the sum over the field's bits, `PutField` writes exactly them. -/
def Obligations.FieldsReadAndWriteTheirBits : Prop :=
  ∀ (buf : List Byte) (f : Field) (v : Nat),
    f.start + f.width ≤ 8 * buf.length → v < 2 ^ f.width →
    (getField buf f =
      ((List.range f.width).map fun k => (getBitG buf (f.start + k)).toNat * 2 ^ (f.width - 1 - k)).sum) ∧
    (∀ k < f.width, getBitG (putField buf f v) (f.start + k) = v.testBit (f.width - 1 - k)) ∧
    (∀ g, g < f.start ∨ f.start + f.width ≤ g → getBitG (putField buf f v) g = getBitG buf g) ∧
    getField (putField buf f v) f = v ∧ (putField buf f v).length = buf.length

/-! ### Transmit side -/

/-- The pulse table (R58, R39): its length and the nominal duration of every slot of every sample-frame, scaled to
ticks. -/
def Obligations.PulseTableFollowsTheSlots : Prop :=
  ∀ (c : Configuration) (m : List Byte) (s : Nat), s < c.sampleCount →
    (pulseTable c m).length = c.sampleCount * (2 * (c.bitCount + c.brk) + c.syncCount) ∧
    (∀ p < c.syncCount, (pulseTable c m)[s * c.frameLen + p]? =
      some (BitVec.ofNat 32 ((c.syncWindows.getD p ⟨0, 0, 0⟩).nominal.toNat * c.ticksPerUs))) ∧
    (∀ i < c.bitCount + c.brk, (pulseTable c m)[s * c.frameLen + (c.syncCount + 2 * i)]? =
      some (BitVec.ofNat 32 (c.separatorWindow.nominal.toNat * c.ticksPerUs))) ∧
    (∀ i < c.bitCount, (pulseTable c m)[s * c.frameLen + (c.syncCount + 2 * i + 1)]? =
      some (BitVec.ofNat 32
        ((if getBit c.bitCount m s i then c.oneWindow else c.zeroWindow).nominal.toNat * c.ticksPerUs))) ∧
    (c.brk = 1 → (pulseTable c m)[s * c.frameLen + (c.syncCount + 2 * c.bitCount + 1)]? =
      some (BitVec.ofNat 32 (c.breakWindow.nominal.toNat * c.ticksPerUs)))

/-- SEND and SEND.W (R59, R60): busy, or the whole start of a transmission; with `wait = 1` the response is withheld. The
buffer's padding bits are written 0 and every other bit is the operand's (R12, notes/assumptions/15.md, DEDUCED). -/
def Obligations.SendStartsATransmission : Prop :=
  ∀ (m : List Byte) (s : State),
    (s.txActive = true →
      exec (.send m) s = .next { s with responses := s.responses ++ [⟨.busy, .empty⟩] } ∧
      exec (.sendW m) s = .next { s with responses := s.responses ++ [⟨.busy, .empty⟩] }) ∧
    (s.txActive = false →
      exec (.send m) s = .next { s with
        msgBuf := clearPadding (s.cfg.sampleCount * s.cfg.bitCount) m, txTable := pulseTable s.cfg m, txIdx := 0
        txPin := true, txCompare := (pulseTable s.cfg m).getD 0 0, txActive := true
        toggles := s.toggles ++ [⟨true, (pulseTable s.cfg m).getD 0 0⟩]
        responses := s.responses ++ [⟨.ok, .empty⟩] } ∧
      exec (.sendW m) s = .next { s with
        msgBuf := clearPadding (s.cfg.sampleCount * s.cfg.bitCount) m, txTable := pulseTable s.cfg m, txIdx := 0
        txPin := true, txCompare := (pulseTable s.cfg m).getD 0 0, txActive := true, hostBlocked := true
        toggles := s.toggles ++ [⟨true, (pulseTable s.cfg m).getD 0 0⟩] }) ∧
    (m.length = s.cfg.msgLen →
      (clearPadding (s.cfg.sampleCount * s.cfg.bitCount) m).length = s.cfg.msgLen ∧
      ∀ g, getBitG (clearPadding (s.cfg.sampleCount * s.cfg.bitCount) m) g =
        (decide (g < s.cfg.sampleCount * s.cfg.bitCount) && getBitG m g))

/-- TXCMP (R61): the next entry, or the end; the end answers a host that waits (R136). -/
def Obligations.TxcmpWalksTheTable : Prop :=
  ∀ s : State, s.txActive = true →
    (s.txIdx + 1 < s.cfg.tableLen → exec .txcmp s = .next { s with
      txIdx := s.txIdx + 1, txPin := !s.txPin, txCompare := s.txTable.getD (s.txIdx + 1) 0
      toggles := s.toggles ++ [⟨!s.txPin, s.txTable.getD (s.txIdx + 1) 0⟩] }) ∧
    (s.cfg.tableLen ≤ s.txIdx + 1 → exec .txcmp s = .next { s with
      txIdx := s.txIdx + 1, txActive := false, hostBlocked := false
      responses := if s.hostBlocked then s.responses ++ [⟨.ok, .empty⟩] else s.responses })

/-- A transmission makes exactly `N` transitions, one per table entry, alternating from the active level, and ends at
level `N mod 2` with the host released (R61, R62, R63). -/
def Obligations.TransmissionMakesNTransitions : Prop :=
  ∀ (m : List Byte) (s u : State), s.txActive = false → s.hostBlocked = false → 1 ≤ s.cfg.tableLen →
    (exec (.send m) s = .next u ∨ exec (.sendW m) s = .next u) →
    ∃ t, execAll (List.replicate s.cfg.tableLen .txcmp) u = .next t ∧
      t.toggles = s.toggles ++
        (List.range s.cfg.tableLen).map (fun j => ⟨decide (j % 2 = 0), (pulseTable s.cfg m).getD j 0⟩) ∧
      t.txActive = false ∧ t.txIdx = s.cfg.tableLen ∧ t.txPin = decide (s.cfg.tableLen % 2 = 1) ∧
      t.hostBlocked = false ∧ t.responses = s.responses ++ [⟨.ok, .empty⟩]

/-! ### Receive side -/

/-- LISTEN and LISTENSTOP (R65, R66). `lastEdgeTime` is among what neither changes. -/
def Obligations.ReceiverAttachAndDetach : Prop :=
  ∀ s : State,
    exec .listen s = .next { s with
      ring := List.replicate s.cfg.ringCap 0, wrIdx := 0, msgBuf := List.replicate s.cfg.msgLen 0, received := false
      rxState := .preamble, preambleIdx := 0, edgeCount := 0, repeatEdgeCount := 0, listening := true
      responses := s.responses ++ [⟨.ok, .empty⟩] } ∧
    exec .listenstop s = .next { s with listening := false, responses := s.responses ++ [⟨.ok, .empty⟩] }

/-- RXEDGE (R68) with the sync test of R67 spelled out on the ring after the store. -/
def Obligations.RxedgeRunsTheReceiver : Prop :=
  ∀ (s : State) (now : Word),
    let ring := s.ring.set (s.wrIdx % s.cfg.ringCap) (now - s.lastEdgeTime)
    let wr := (s.wrIdx + 1) % s.cfg.ringCap
    let sync := ∀ k < s.cfg.syncCount, InWindow (s.cfg.syncWindows.getD k ⟨0, 0, 0⟩)
      (ring.getD ((wr + s.cfg.ringCap - s.cfg.syncCount + k) % s.cfg.ringCap) 0)
    let past := s.cfg.bitCount * 2 * s.cfg.sampleCount + s.cfg.syncCount < (s.edgeCount + 1).toNat
    ((s.listening = false ∨ s.received = true) → exec (.rxedge now) s = .next s) ∧
    (s.listening = true → s.received = false → s.rxState = .preamble →
      (sync → exec (.rxedge now) s = .next { s with
        ring := ring, wrIdx := wr, lastEdgeTime := now, rxState := .message
        preambleIdx := (wr + s.cfg.ringCap - s.cfg.syncCount) % s.cfg.ringCap
        edgeCount := BitVec.ofNat 32 s.cfg.syncCount }) ∧
      (¬ sync → exec (.rxedge now) s = .next { s with ring := ring, wrIdx := wr, lastEdgeTime := now })) ∧
    (s.listening = true → s.received = false → s.rxState = .message →
      ∃ t, exec (.rxedge now) s = .next t ∧
        (sync → t.repeatEdgeCount = s.repeatEdgeCount + 1) ∧ (¬ sync → t.repeatEdgeCount = s.repeatEdgeCount) ∧
        (past → t.listening = false ∧ t.received = true) ∧ (¬ past → t.listening = true ∧ t.received = false) ∧
        t = { s with
          ring := ring, wrIdx := wr, lastEdgeTime := now, edgeCount := s.edgeCount + 1
          repeatEdgeCount := t.repeatEdgeCount, listening := t.listening, received := t.received })

/-- CHKMSG (R70, R128): NONE and no change, or the drain; the bits are those of the walk, whose every case is told:
durations exhausted, a zero, a one, a boundary by the break or by any sync window, a malformed duration under each policy,
and the end at the expected bit count. -/
def Obligations.ChkmsgDrainsTheMessage : Prop :=
  ∀ s : State,
    (s.received = false → exec .chkmsg s = .next { s with responses := s.responses ++ [⟨.none, .empty⟩] }) ∧
    (s.received = true → ∃ (e : WalkEnd) (buf : List Byte),
      walk s.cfg ((List.range ((s.edgeCount.toNat - s.cfg.syncCount) / 2)).map fun k =>
        s.ring.getD ((s.preambleIdx + s.cfg.syncCount + (2 * k + 1)) % s.cfg.ringCap) 0) 0
        (List.replicate s.cfg.msgLen 0) = (e, buf) ∧
      exec .chkmsg s = .next { s with
        received := false, rxState := .preamble, edgeCount := 0, repeatEdgeCount := 0
        msgBuf := if e = .done then buf else List.replicate s.cfg.msgLen 0
        responses := s.responses ++
          [if e = .done then ⟨.ok, .buffer buf⟩ else ⟨.malformedFrame, .empty⟩] }) ∧
    (∀ (bit : Nat) (buf : List Byte), walk s.cfg [] bit buf = (.exhausted, buf)) ∧
    (∀ (d : Word) (ds : List Word) (bit : Nat) (buf : List Byte),
      let goOn := fun (bit' : Nat) (buf' : List Byte) =>
        if bit' = s.cfg.sampleCount * s.cfg.bitCount then (WalkEnd.done, buf') else walk s.cfg ds bit' buf'
      let zero := InWindow s.cfg.zeroWindow d
      let one := InWindow s.cfg.oneWindow d
      let edge := (s.cfg.brk = 1 ∧ InWindow s.cfg.breakWindow d) ∨ ∃ w ∈ s.cfg.syncWindows, InWindow w d
      (zero → walk s.cfg (d :: ds) bit buf = goOn (bit + 1) buf) ∧
      (¬ zero → one → walk s.cfg (d :: ds) bit buf = goOn (bit + 1) (setBitG buf bit)) ∧
      (¬ zero → ¬ one → edge → walk s.cfg (d :: ds) bit buf = (.done, buf)) ∧
      (¬ zero → ¬ one → ¬ edge → s.cfg.malformedPolicy = .abort →
        walk s.cfg (d :: ds) bit buf = (.malformed, buf)) ∧
      (¬ zero → ¬ one → ¬ edge → s.cfg.malformedPolicy = .restartCount →
        walk s.cfg (d :: ds) bit buf = goOn 0 (List.replicate s.cfg.msgLen 0)))

/-- Polling twice without an edge between answers NONE the second time (R70, corner case 5). -/
def Obligations.SecondPollAnswersNone : Prop :=
  ∀ s t : State, exec .chkmsg s = .next t →
    exec .chkmsg t = .next { t with responses := t.responses ++ [⟨.none, .empty⟩] }

/-- With a break in the protocol, the decode walk inverts sample 0 of the pulse table: over the sample's nominal data
durations and the break it returns the sample's bits and zeros after them (R58, R70). -/
def Obligations.WalkDecodesTheTransmittedSample : Prop :=
  ∀ (c : Configuration) (m : List Byte), wellFormedConfig c = true → c.brk = 1 →
    ∃ buf, walk c
        ((List.range c.bitCount).map (fun i => pulse c m (c.syncCount + 2 * i + 1)) ++ [c.breakWindow.nominal]) 0
        (List.replicate c.msgLen 0) = (.done, buf) ∧
      buf.length = c.msgLen ∧
      ∀ g, getBitG buf g = (decide (g < c.bitCount) && getBitG m g)

/-- Under the policy Abort a data duration in no window ends the walk as malformed, whatever follows it; under either
policy durations past the end of a walk that did end are never looked at (R70, R128). -/
def Obligations.MalformedDurationAborts : Prop :=
  (∀ (c : Configuration) (ds rest : List Word) (bit : Nat) (buf : List Byte),
    (walk c ds bit buf).1 ≠ .exhausted → walk c (ds ++ rest) bit buf = walk c ds bit buf) ∧
  ∀ (c : Configuration) (good rest : List Word) (d : Word) (buf : List Byte),
    good.length < c.sampleCount * c.bitCount → c.malformedPolicy = .abort →
    (∀ x ∈ good, InWindow c.zeroWindow x ∨ InWindow c.oneWindow x) →
    ¬ InWindow c.zeroWindow d → ¬ InWindow c.oneWindow d → (c.brk = 1 → ¬ InWindow c.breakWindow d) →
    (∀ w ∈ c.syncWindows, ¬ InWindow w d) →
    (walk c (good ++ d :: rest) 0 buf).1 = .malformed

/-! ### Codec -/

/-- The heat-pump message (R42): two samples, the second payload the complement of the first, each with the checksum of
its own payload. `CHECKSUM_REF` (R74), where the configuration names it, is the one's complement of the sum, modulo 256, of
the payload bytes with their bits reversed. -/
def Obligations.BuiltMessageHasTwoSamples : Prop :=
  (∀ (c : Configuration) (p : List Byte), c.checksum = .ref →
    (checksum c p).toNat = 255 -
      (p.map fun b => ((List.range 8).map fun k => (b.getLsbD k).toNat * 2 ^ (7 - k)).sum).sum % 256) ∧
  ∀ (c : Configuration) (p : List Byte), wellFormedConfig c = true → c.variant = .heatPump →
    p.length = c.payloadBytes →
    c.sampleCount = 2 ∧ c.bitCount = 8 * (c.payloadBytes + 1) ∧ (build c p).length = c.msgLen ∧
    pay c (build c p) 0 = p ∧ cs c (build c p) 0 = checksum c p ∧
    pay c (build c p) 1 = p.map (~~~ ·) ∧ cs c (build c p) 1 = checksum c (p.map (~~~ ·))

/-- Under the generic variant every codec operation answers ILLEGAL_OP and changes nothing (R71). -/
def Obligations.GenericCodecIsIllegal : Prop :=
  ∀ (i : Instr) (s : State), isCodecOp i = true → s.cfg.variant = .generic →
    exec i s = .next { s with responses := s.responses ++ [⟨.illegalOp, .empty⟩] }

/-- ISVALID and ISVALID.S (R76, with the check of R75): sample 0 first, then sample 1, else sample 0's failure and no
change. -/
def Obligations.IsvalidAdoptsAValidBuffer : Prop :=
  ∀ (b : List Byte) (now : Word) (s : State), s.isHeatPump →
    let good := fun (x : List Byte) (k : Nat) =>
      ((if k = 0 then pay s.cfg x 0 else (pay s.cfg x k).map (~~~ ·)).headD 0 &&& s.cfg.markerMask =
        s.cfg.markerValue) ∧ checksum s.cfg (pay s.cfg x k) = cs s.cfg x k
    let adopted := fun (x p : List Byte) (v : Bool) => ({ s with
      cm := build s.cfg p, validSample := v, seqNo := s.seqNo + 1, lastSampleTime := now
      responses := s.responses ++
        [⟨if kindCode s.cfg p ∈ [s.cfg.kindCommand, s.cfg.kindOption, s.cfg.kindFollowMe] then .ok
          else .unsupportedInstruction, .buffer x⟩] } : State)
    let judged := fun (x : List Byte) (o : Out) =>
      (good x 0 → o = .next (adopted x (pay s.cfg x 0) false)) ∧
      (¬ good x 0 → good x 1 → o = .next (adopted x ((pay s.cfg x 1).map (~~~ ·)) true)) ∧
      (¬ good x 0 → ¬ good x 1 → o = .next { s with responses := s.responses ++
        [⟨if (pay s.cfg x 0).headD 0 &&& s.cfg.markerMask = s.cfg.markerValue then .checksumMismatch
          else .invalidMarker, .buffer x⟩] })
    judged b (exec (.isvalid b now) s) ∧
    judged (b.set s.cfg.payloadBytes (checksum s.cfg (pay s.cfg b 0))) (exec (.isvalidS b now) s)

/-- GETMSG (R77). -/
def Obligations.GetmsgNormalises : Prop :=
  ∀ s : State, s.isHeatPump →
    exec .getmsg s = .next { s with
      cm := build s.cfg (pay s.cfg s.cm 0)
      responses := s.responses ++ [⟨.ok, .buffer (build s.cfg (pay s.cfg s.cm 0))⟩] }

/-- Round-trip validity (R78). -/
def Obligations.NormalisedMessageValidatesAgain : Prop :=
  ∀ (s u : State) (m : List Byte) (t t' : Word) (st : Status),
    wellFormedConfig s.cfg = true → s.isHeatPump → m.length = s.cfg.msgLen →
    exec (.isvalid m t) s = .next u → u.responses = s.responses ++ [⟨st, .buffer m⟩] →
    (st = .ok ∨ st = .unsupportedInstruction) →
    ∃ (v w : State) (g : List Byte),
      exec .getmsg u = .next v ∧ v.responses = u.responses ++ [⟨.ok, .buffer g⟩] ∧
      exec (.isvalid g t') v = .next w ∧ w.responses = v.responses ++ [⟨st, .buffer g⟩] ∧
      w.validSample = false ∧ pay s.cfg w.cm 0 = pay s.cfg u.cm 0 ∧ check s.cfg g 1 = .good

/-- GETKIND, GETSEQ, GETTS (R79, R101, R102). Should a configuration give two kinds one code, GETKIND answers the first
of Command, Option, FollowMe that has it (notes/assumptions/8.md, DEDUCED). -/
def Obligations.CodecReadsAnswer : Prop :=
  ∀ s : State, s.isHeatPump →
    (∀ k : Kind, kindCode s.cfg (pay s.cfg s.cm 0) = kindValue s.cfg k →
      (∀ k' ∈ [Kind.command, .option, .followMe].takeWhile (· ≠ k), kindValue s.cfg k' ≠ kindValue s.cfg k) →
      exec .getkind s = .next { s with responses := s.responses ++ [⟨.ok, .kind k⟩] }) ∧
    ((∀ k : Kind, kindCode s.cfg (pay s.cfg s.cm 0) ≠ kindValue s.cfg k) →
      exec .getkind s = .next { s with responses := s.responses ++
        [⟨.unsupportedInstruction, .code (kindCode s.cfg (pay s.cfg s.cm 0)).toNat⟩] }) ∧
    exec .getseq s = .next { s with responses := s.responses ++ [⟨.ok, .word s.seqNo⟩] } ∧
    exec .getts s = .next { s with responses := s.responses ++ [⟨.ok, .word s.lastSampleTime⟩] }

/-- GET.POWER and GET.SLEEP (R83, R89): the stored bit; of a field that a configuration makes wider than one bit, the
value 0 or 1, and for any other code INVALID_FIELD and the code (R80, notes/assumptions/25.md, DEDUCED). -/
def Obligations.BitGettersReadTheirField : Prop :=
  ∀ s : State, s.isHeatPump → s.hasKind [.command, .followMe] = true →
    let answered := fun (f : Field) (o : Out) =>
      (f.width = 1 → o = .next { s with responses := s.responses ++ [⟨.ok, .bit (getBitG s.cm f.start)⟩] }) ∧
      (∀ v : Bool, getField s.cm f = v.toNat →
        o = .next { s with responses := s.responses ++ [⟨.ok, .bit v⟩] }) ∧
      (2 ≤ getField s.cm f →
        o = .next { s with responses := s.responses ++ [⟨.invalidField, .code (getField s.cm f)⟩] })
    answered s.cfg.fieldMap.power (exec .getPower s) ∧ answered s.cfg.fieldMap.sleep (exec .getSleep s)

/-- GET.MODE, GET.FAN and GET.FMSTATE (R85, R87, R97): the value that has the field's code, else INVALID_FIELD and the
code. -/
def Obligations.EnumGettersDecodeTheirField : Prop :=
  ∀ s : State, wellFormedConfig s.cfg = true → s.isHeatPump →
    (s.hasKind [.command, .followMe] = true →
      (∀ m, modeCodeOf s.cfg m = getField s.cm s.cfg.fieldMap.mode →
        exec .getMode s = .next { s with responses := s.responses ++ [⟨.ok, .mode m⟩] }) ∧
      ((∀ m, modeCodeOf s.cfg m ≠ getField s.cm s.cfg.fieldMap.mode) →
        exec .getMode s = .next { s with responses := s.responses ++
          [⟨.invalidField, .code (getField s.cm s.cfg.fieldMap.mode)⟩] }) ∧
      (∀ f, fanCodeOf s.cfg f = getField s.cm s.cfg.fieldMap.fan →
        exec .getFan s = .next { s with responses := s.responses ++ [⟨.ok, .fan f⟩] }) ∧
      ((∀ f, fanCodeOf s.cfg f ≠ getField s.cm s.cfg.fieldMap.fan) →
        exec .getFan s = .next { s with responses := s.responses ++
          [⟨.invalidField, .code (getField s.cm s.cfg.fieldMap.fan)⟩] })) ∧
    (s.hasKind [.followMe] = true →
      (∀ x, fmStateCodeOf s.cfg x = getField s.cm s.cfg.fieldMap.fmState →
        exec .getFmstate s = .next { s with responses := s.responses ++ [⟨.ok, .fmState x⟩] }) ∧
      ((∀ x, fmStateCodeOf s.cfg x ≠ getField s.cm s.cfg.fieldMap.fmState) →
        exec .getFmstate s = .next { s with responses := s.responses ++
          [⟨.invalidField, .code (getField s.cm s.cfg.fieldMap.fmState)⟩] }))

/-- GET.TEMP, GET.FMTEMP and GET.OPTION (R91, R95, R93). -/
def Obligations.ValueGettersDecodeTheirField : Prop :=
  ∀ s : State, s.isHeatPump →
    (s.hasKind [.command, .followMe] = true → exec .getTemp s = .next { s with responses := s.responses ++
      [if modeOfCode s.cfg (getField s.cm s.cfg.fieldMap.mode) = some .fan then ⟨.invalidField, .code 0⟩
       else if s.cfg.tempMin ≤ getField s.cm s.cfg.fieldMap.temp + s.cfg.tempOffset ∧
           getField s.cm s.cfg.fieldMap.temp + s.cfg.tempOffset ≤ s.cfg.tempMax then
         ⟨.ok, .signed (getField s.cm s.cfg.fieldMap.temp + s.cfg.tempOffset)⟩
       else ⟨.invalidField, .code (getField s.cm s.cfg.fieldMap.temp)⟩] }) ∧
    (s.hasKind [.followMe] = true → exec .getFmtemp s = .next { s with responses := s.responses ++
      [if s.cfg.fmTempMin ≤ getField s.cm s.cfg.fieldMap.fmTemp + s.cfg.fmTempOffset ∧
           getField s.cm s.cfg.fieldMap.fmTemp + s.cfg.fmTempOffset ≤ s.cfg.fmTempMax then
         ⟨.ok, .signed (getField s.cm s.cfg.fieldMap.fmTemp + s.cfg.fmTempOffset)⟩
       else ⟨.invalidField, .code (getField s.cm s.cfg.fieldMap.fmTemp)⟩] }) ∧
    (s.hasKind [.option] = true →
      (∀ o ∈ s.cfg.optionSet, o.toNat = getField s.cm s.cfg.fieldMap.option →
        exec .getOption s = .next { s with responses := s.responses ++ [⟨.ok, .option o⟩] }) ∧
      ((∀ o ∈ s.cfg.optionSet, o.toNat ≠ getField s.cm s.cfg.fieldMap.option) →
        exec .getOption s = .next { s with responses := s.responses ++
          [⟨.invalidField, .code (getField s.cm s.cfg.fieldMap.option)⟩] }))

/-- An accessor of a field the message kind does not have: INVALID_FIELD, a getter with 0, and no change (R80, R81). -/
def Obligations.WrongKindIsInvalidField : Prop :=
  ∀ (s : State) (v : Bool) (m : Option Mode) (f : Option Fan) (x : Option FmState) (t : Int) (o : Byte),
    s.isHeatPump →
    let refusedGet := (.next { s with responses := s.responses ++ [⟨.invalidField, .code 0⟩] } : Out)
    let refusedSet := (.next { s with responses := s.responses ++ [⟨.invalidField, .empty⟩] } : Out)
    (s.hasKind [.command, .followMe] = false →
      exec .getPower s = refusedGet ∧ exec .getMode s = refusedGet ∧ exec .getFan s = refusedGet ∧
      exec .getSleep s = refusedGet ∧ exec .getTemp s = refusedGet ∧ exec (.setPower v) s = refusedSet ∧
      exec (.setMode m) s = refusedSet ∧ exec (.setFan f) s = refusedSet ∧ exec (.setSleep v) s = refusedSet ∧
      exec (.setTemp t) s = refusedSet) ∧
    (s.hasKind [.option] = false → exec .getOption s = refusedGet ∧ exec (.setOption o) s = refusedSet) ∧
    (s.hasKind [.followMe] = false →
      exec .getFmtemp s = refusedGet ∧ exec .getFmstate s = refusedGet ∧ exec (.setFmtemp t) s = refusedSet ∧
      exec (.setFmstate x) s = refusedSet)

/-- SET.POWER and SET.SLEEP (R84, R90). -/
def Obligations.PowerAndSleepSettersWrite : Prop :=
  ∀ (s : State) (v : Bool), s.isHeatPump → s.hasKind [.command, .followMe] = true →
    exec (.setPower v) s = .next { s with
      cm := if v then putField s.cm s.cfg.fieldMap.power 1
        else putField (putField s.cm s.cfg.fieldMap.power 0) s.cfg.fieldMap.sleep 0
      responses := s.responses ++ [⟨.ok, .empty⟩] } ∧
    exec (.setSleep v) s = .next { s with
      cm := if getField s.cm s.cfg.fieldMap.power = 0 ∨
          modeOfCode s.cfg (getField s.cm s.cfg.fieldMap.mode) ∈ [some .fan, some .dry] then s.cm
        else putField s.cm s.cfg.fieldMap.sleep v.toNat
      responses := s.responses ++ [⟨.ok, .empty⟩] }

/-- SET.MODE and SET.FAN (R86, R88) with their forced writes. -/
def Obligations.ModeAndFanSettersWrite : Prop :=
  ∀ (s : State) (m : Mode) (f : Fan), s.isHeatPump → s.hasKind [.command, .followMe] = true →
    exec (.setMode (some m)) s = .next { s with
      cm :=
        let a := putField s.cm s.cfg.fieldMap.mode (modeCodeOf s.cfg m)
        let b := if m ∈ [.auto, .dry] then putField a s.cfg.fieldMap.fan s.cfg.fanCode.auto else a
        if m ∈ [.fan, .dry] then putField b s.cfg.fieldMap.sleep 0 else b
      responses := s.responses ++ [⟨.ok, .empty⟩] } ∧
    exec (.setFan (some f)) s = .next { s with
      cm := putField s.cm s.cfg.fieldMap.fan
        (if modeOfCode s.cfg (getField s.cm s.cfg.fieldMap.mode) ∈ [some .auto, some .dry] then s.cfg.fanCode.auto
         else fanCodeOf s.cfg f)
      responses := s.responses ++ [⟨.ok, .empty⟩] }

/-- SET.TEMP and SET.FMTEMP (R92, R96). That a temperature out of range answers OK in mode Fan, the mode being tested
before the range, is notes/assumptions/21.md (DEDUCED). -/
def Obligations.TemperatureSettersWrite : Prop :=
  ∀ (s : State) (t : Int), s.isHeatPump →
    (s.hasKind [.command, .followMe] = true → exec (.setTemp t) s = .next
      (if modeOfCode s.cfg (getField s.cm s.cfg.fieldMap.mode) = some .fan then
        { s with responses := s.responses ++ [⟨.ok, .empty⟩] }
      else if t < s.cfg.tempMin ∨ s.cfg.tempMax < t then
        { s with responses := s.responses ++ [⟨.invalidField, .empty⟩] }
      else { s with
        cm := putField s.cm s.cfg.fieldMap.temp (t - s.cfg.tempOffset).toNat
        responses := s.responses ++ [⟨.ok, .empty⟩] })) ∧
    (s.hasKind [.followMe] = true → exec (.setFmtemp t) s = .next
      (if t < s.cfg.fmTempMin ∨ s.cfg.fmTempMax < t then
        { s with responses := s.responses ++ [⟨.invalidField, .empty⟩] }
      else { s with
        cm := putField s.cm s.cfg.fieldMap.fmTemp (t - s.cfg.fmTempOffset).toNat
        responses := s.responses ++ [⟨.ok, .empty⟩] }))

/-- SET.OPTION and SET.FMSTATE (R94, R98); an enum operand that is no value is INVALID_FIELD with no change (R81,
notes/assumptions/16.md). -/
def Obligations.OptionAndStateSettersWrite : Prop :=
  ∀ (s : State) (o : Byte) (x : FmState), s.isHeatPump →
    (s.hasKind [.option] = true → exec (.setOption o) s = .next
      (if o ∈ s.cfg.optionSet then { s with
        cm := putField s.cm s.cfg.fieldMap.option o.toNat, responses := s.responses ++ [⟨.ok, .empty⟩] }
      else { s with responses := s.responses ++ [⟨.invalidField, .empty⟩] })) ∧
    (s.hasKind [.followMe] = true → exec (.setFmstate (some x)) s = .next { s with
      cm := putField s.cm s.cfg.fieldMap.fmState (fmStateCodeOf s.cfg x)
      responses := s.responses ++ [⟨.ok, .empty⟩] }) ∧
    exec (.setMode none) s = .next { s with responses := s.responses ++ [⟨.invalidField, .empty⟩] } ∧
    exec (.setFan none) s = .next { s with responses := s.responses ++ [⟨.invalidField, .empty⟩] } ∧
    exec (.setFmstate none) s = .next { s with responses := s.responses ++ [⟨.invalidField, .empty⟩] }

/-- If the cross-field invariants hold before a setter they hold after it (R82). The power field holds a bit, 0 or 1, as
R44 lists its values; it still does after the setter. The message is no Option as well, which only a configuration with two
kinds of one code could make it (notes/assumptions/8.md): SET.OPTION then writes over the fields of a Command. -/
def Obligations.SettersKeepTheCrossFieldInvariants : Prop :=
  ∀ (s t : State) (i : Instr), wellFormedConfig s.cfg = true → s.isHeatPump → s.cm.length = s.cfg.msgLen →
    s.hasKind [.command, .followMe] = true → s.hasKind [.option] = false → s.field (·.power) ≤ 1 → s.crossFieldOk →
    writesMessage i = true →
    (∀ b now, i ≠ .isvalid b now) → (∀ b now, i ≠ .isvalidS b now) → (∀ c, i ≠ .reset c) →
    exec i s = .next t → t.crossFieldOk ∧ t.field (·.power) ≤ 1

/-- OPTCMD (R99): pure, and its buffer is the normalised form of an Option payload with only the option set. -/
def Obligations.OptcmdBuildsAnOption : Prop :=
  ∀ (s : State) (o : Byte), s.isHeatPump → exec (.optcmd o) s = .next { s with responses := s.responses ++
    [if o ∈ s.cfg.optionSet then ⟨.ok, .buffer (build s.cfg (putField
        ((s.cfg.markerValue ||| s.cfg.kindOption) :: List.replicate (s.cfg.payloadBytes - 1) 0)
        s.cfg.fieldMap.option o.toNat))⟩
     else ⟨.invalidField, .empty⟩] }

/-- FMCMD (R100): the order of its checks, and the payload it builds, field by field and bit by bit. That an operand which
names no state answers INVALID_FIELD, after the checks of the snapshot, is the model's choice: R100 names no such case
(notes/assumptions/16.md, DESIGN CHOICE). -/
def Obligations.FmcmdMutatesASnapshot : Prop :=
  ∀ (s : State) (prev : List Byte) (x : FmState) (t : Int),
    wellFormedConfig s.cfg = true → s.isHeatPump → prev.length = s.cfg.msgLen →
    let answer := fun (r : Response) => (.next { s with responses := s.responses ++ [r] } : Out)
    (check s.cfg prev 0 = .invalidMarker → check s.cfg prev 1 ≠ .good →
      ∀ st, exec (.fmcmd prev st t) s = answer ⟨.invalidMarker, .empty⟩) ∧
    (check s.cfg prev 0 = .checksumMismatch → check s.cfg prev 1 ≠ .good →
      ∀ st, exec (.fmcmd prev st t) s = answer ⟨.checksumMismatch, .empty⟩) ∧
    (∀ p : List Byte,
      (check s.cfg prev 0 = .good ∧ p = pay s.cfg prev 0) ∨
        (check s.cfg prev 0 ≠ .good ∧ check s.cfg prev 1 = .good ∧ p = (pay s.cfg prev 1).map (~~~ ·)) →
      exec (.fmcmd prev none t) s = answer ⟨.invalidField, .empty⟩ ∧
      ((kindCode s.cfg p ∉ [s.cfg.kindCommand, s.cfg.kindFollowMe] ∨ t < s.cfg.fmTempMin ∨ s.cfg.fmTempMax < t) →
        exec (.fmcmd prev (some x) t) s = answer ⟨.invalidField, .empty⟩) ∧
      (kindCode s.cfg p ∈ [s.cfg.kindCommand, s.cfg.kindFollowMe] → s.cfg.fmTempMin ≤ t → t ≤ s.cfg.fmTempMax →
        ∃ q : List Byte, exec (.fmcmd prev (some x) t) s = answer ⟨.ok, .buffer (build s.cfg q)⟩ ∧
          q.length = s.cfg.payloadBytes ∧
          q.headD 0 = (p.headD 0 &&& ~~~s.cfg.kindMask) ||| s.cfg.kindFollowMe ∧
          (∀ f ∈ commandFields s.cfg.fieldMap, getField q f = getField p f) ∧
          getField q s.cfg.fieldMap.fmState = fmStateCodeOf s.cfg x ∧
          (getField q s.cfg.fieldMap.fmTemp : Int) = t - s.cfg.fmTempOffset ∧
          (∀ g, 8 ≤ g →
            (∀ f ∈ commandFields s.cfg.fieldMap ++ [s.cfg.fieldMap.fmState, s.cfg.fieldMap.fmTemp],
              g < f.start ∨ f.start + f.width ≤ g) → getBitG q g = false)))

/-- What the factories build passes the check in both samples, with the kind they are for (R99, R100, R75), when the
marker and the kinds lie inside their masks, as R43 presupposes (notes/assumptions/8.md). -/
def Obligations.FactoryOutputsAreValid : Prop :=
  ∀ (s t : State) (b : List Byte), wellFormedConfig s.cfg = true → s.isHeatPump → instructionByteFits s.cfg →
    t.responses = s.responses ++ [⟨.ok, .buffer b⟩] →
    (∀ o, exec (.optcmd o) s = .next t →
      check s.cfg b 0 = .good ∧ check s.cfg b 1 = .good ∧ kindCode s.cfg (pay s.cfg b 0) = s.cfg.kindOption) ∧
    (∀ prev x k, exec (.fmcmd prev x k) s = .next t →
      check s.cfg b 0 = .good ∧ check s.cfg b 1 = .good ∧ kindCode s.cfg (pay s.cfg b 0) = s.cfg.kindFollowMe)

/-! ### Display -/

/-- DCLK and DSTB (R104, R105). -/
def Obligations.ClockSamplesAndStrobeRealigns : Prop :=
  ∀ (s : State) (data : Bool),
    let byte := s.dByte ||| ((if data then 1#8 else 0#8) <<< s.dBitPos.val)
    ((s.dListening = false ∨ s.dBytePos = 3) → exec (.dclk data) s = .next s) ∧
    (s.dListening = true → s.dBytePos ≠ 3 → s.dBitPos ≠ 7 →
      exec (.dclk data) s = .next { s with dByte := byte, dBitPos := s.dBitPos + 1 }) ∧
    (s.dListening = true → s.dBitPos = 7 →
      (s.dBytePos = 0 → exec (.dclk data) s = .next { s with
        dRaw := { s.dRaw with b0 := byte }, dByte := 0, dBitPos := 0, dBytePos := 1 }) ∧
      (s.dBytePos = 1 → exec (.dclk data) s = .next { s with
        dRaw := { s.dRaw with b1 := byte }, dByte := 0, dBitPos := 0, dBytePos := 2 }) ∧
      (s.dBytePos = 2 → exec (.dclk data) s = .next { s with
        dRaw := { s.dRaw with b2 := byte }, dByte := 0, dBitPos := 0, dBytePos := 3, dReady := true })) ∧
    (s.dListening = true → exec .dstb s = .next { s with dBitPos := 0, dBytePos := 0, dByte := 0 }) ∧
    (s.dListening = false → exec .dstb s = .next s)

/-- After a strobe, 24 clock edges with a frame's bits, least significant bit of each byte first, store that frame and
set the ready flag (R47, R104, R105). -/
def Obligations.FrameIsReassembled : Prop :=
  ∀ (s : State) (x y z : Byte), s.dListening = true →
    execAll (.dstb :: (clockByte x ++ clockByte y ++ clockByte z)) s = .next { s with
      dRaw := ⟨x, y, z⟩, dByte := 0, dBitPos := 0, dBytePos := 3, dReady := true }

/-- DLISTEN and DLISTENSTOP (R106, R107). -/
def Obligations.DisplayAttachAndDetach : Prop :=
  ∀ s : State,
    exec .dlisten s = .next { s with
      dBitPos := 0, dBytePos := 0, dByte := 0, dReady := false, dListening := true
      responses := s.responses ++ [⟨.ok, .empty⟩] } ∧
    exec .dlistenstop s = .next { s with dListening := false, responses := s.responses ++ [⟨.ok, .empty⟩] }

/-- HASUPD in one step (R108). -/
def Obligations.HasupdJudgesTheFrame : Prop :=
  ∀ s : State, s.hasupd = .idle → s.cfg.hasupdAtomic = true →
    let f : Frame := ⟨s.dRaw.b0 &&& 0xFE, s.dRaw.b1 &&& 0xFE, s.dRaw.b2 &&& 0xFE⟩
    (s.dReady = false → exec .hasupd s = .next { s with responses := s.responses ++ [⟨.ok, .bit false⟩] }) ∧
    (s.dReady = true → f ≠ s.dShadow → f.b0 ≠ s.cfg.blankCode → f.b1 ≠ s.cfg.blankCode →
      exec .hasupd s = .next { s with
        dReady := false, dShadow := f, responses := s.responses ++ [⟨.ok, .bit true⟩] }) ∧
    (s.dReady = true → f = s.dShadow ∨ f.b0 = s.cfg.blankCode ∨ f.b1 = s.cfg.blankCode →
      exec .hasupd s = .next { s with dReady := false, responses := s.responses ++ [⟨.ok, .bit false⟩] })

/-- HASUPD in four steps (R32). Each sub-step from any state, so with any events before it: "clear dReady", the two reads
of dRaw as it then stands, and the last read with the judgement of R108 on the three bytes read; with nothing ready HASUPD
answers at once. With no event between they do what one step does, and with the host's commands waiting the steps follow
each other by themselves. How the sub-steps are scheduled is notes/assumptions/10.md. -/
def Obligations.SplitHasupdReadsByteByByte : Prop :=
  (∀ s : State,
    (s.hasupd = .idle → s.cfg.hasupdAtomic = false →
      exec .hasupd s = .next (if s.dReady then { s with dReady := false, hasupd := .cleared }
        else { s with responses := s.responses ++ [⟨.ok, .bit false⟩] })) ∧
    (s.hasupd = .cleared → exec .hasupd s = .next { s with hasupd := .read0 s.dRaw.b0 }) ∧
    (∀ x, s.hasupd = .read0 x → exec .hasupd s = .next { s with hasupd := .read1 x s.dRaw.b1 }) ∧
    (∀ x y, s.hasupd = .read1 x y →
      let f : Frame := ⟨x &&& 0xFE, y &&& 0xFE, s.dRaw.b2 &&& 0xFE⟩
      (f ≠ s.dShadow → f.b0 ≠ s.cfg.blankCode → f.b1 ≠ s.cfg.blankCode →
        exec .hasupd s = .next { s with
          hasupd := .idle, dShadow := f, responses := s.responses ++ [⟨.ok, .bit true⟩] }) ∧
      (f = s.dShadow ∨ f.b0 = s.cfg.blankCode ∨ f.b1 = s.cfg.blankCode →
        exec .hasupd s = .next { s with hasupd := .idle, responses := s.responses ++ [⟨.ok, .bit false⟩] }))) ∧
  ∀ s : State, s.hasupd = .idle → s.hostBlocked = false → s.cfg.hasupdAtomic = false → s.dReady = true →
    ∀ (b : List Byte) (rest : List Request), s.inbox = .command (0x62 :: b) :: rest →
      (∀ r ∈ rest.head?, isCommand r = true) →
    ∃ s1 s2 s3 s4 : State, step s = .next s1 ∧ step s1 = .next s2 ∧ step s2 = .next s3 ∧ step s3 = .next s4 ∧
      s1 = { s with inbox := rest, dReady := false, hasupd := .cleared } ∧
      s2 = { s1 with hasupd := .read0 s.dRaw.b0 } ∧ s3 = { s2 with hasupd := .read1 s.dRaw.b0 s.dRaw.b1 } ∧
      exec .hasupd { s with inbox := rest, cfg := { s.cfg with hasupdAtomic := true } } =
        .next { s4 with cfg := { s.cfg with hasupdAtomic := true } }

/-- ASCII (R109). -/
def Obligations.AsciiRendersTheStableFrame : Prop :=
  ∀ s : State,
    let text := fun (code : Byte) => ((s.cfg.segTable.find? fun e => e.1 == code).map Prod.snd).getD [ch '?']
    exec .ascii s = .next { s with responses := s.responses ++
      [⟨.ok, .text (text s.dShadow.b0 ++ text s.dShadow.b1) s.dShadow.b2⟩] }

/-- A2I (R111): an optional leading minus, then each character worth its hexadecimal value times the power of ten of its
position; a text of at most four characters stays within 16665. -/
def Obligations.AlphaToIntWeighsByTen : Prop :=
  ∀ (text : List Ch) (s : State),
    let hex := fun (x : Ch) => if 48 ≤ x.toNat ∧ x.toNat ≤ 57 then x.toNat - 48
      else if 65 ≤ x.toNat ∧ x.toNat ≤ 70 then x.toNat - 55 else 0
    let value := fun (t : List Ch) =>
      ((List.range t.length).map fun k => hex (t.getD k 0) * 10 ^ (t.length - 1 - k)).sum
    let result : Int := if text.head? = some (ch '-') then -(value text.tail : Int) else value text
    exec (.a2i text) s = .next { s with responses := s.responses ++ [⟨.ok, .signed result⟩] } ∧
    (text.length ≤ 4 → result.natAbs ≤ 16665)

/-! ### Scanner -/

/-- SCANSTART (R115, with the entry action of R114). -/
def Obligations.ScanstartEntersAPass : Prop :=
  ∀ (s : State) (now : Word), s.isHeatPump →
    (s.scanState ≠ .idle ∨ (s.passDone = true ∧ (now - s.passEndTime).toNat < s.cfg.cooldown.toNat) →
      exec (.scanstart now) s = .next { s with responses := s.responses ++ [⟨.busy, .empty⟩] }) ∧
    (s.scanState = .idle → (s.passDone = false ∨ s.cfg.cooldown.toNat ≤ (now - s.passEndTime).toNat) →
      exec (.scanstart now) s = .next { s with
        props := List.replicate 27 0, scanIndex := 0, scanRemaining := s.cfg.nSelect + s.cfg.nAdvance
        scanState := if 0 < s.cfg.nSelect + s.cfg.nAdvance then .stepping else .awaitingLabel
        responses := s.responses ++ [⟨.ok, .empty⟩] })

/-- SCANTICK in Idle and in Stepping (R116): the periodic entry, and the command queue of R114. -/
def Obligations.ScantickStepsTheQueue : Prop :=
  ∀ (s : State) (now : Word), wellFormedConfig s.cfg = true → s.isHeatPump →
    let since := (now - s.passEndTime).toNat
    let due := (∃ d, s.cfg.scanInterval = some d ∧ d.toNat ≤ since) ∧
      (s.passDone = false ∨ s.cfg.cooldown.toNat ≤ since)
    let quiet := ({ s with responses := s.responses ++ [⟨.ok, .scanOut false false false⟩] } : State)
    (s.scanState = .idle → due → exec (.scantick now) s = .next { quiet with
      props := List.replicate 27 0, scanIndex := 0, scanRemaining := s.cfg.nSelect + s.cfg.nAdvance
      scanState := if 0 < s.cfg.nSelect + s.cfg.nAdvance then .stepping else .awaitingLabel }) ∧
    (s.scanState = .idle → ¬ due → exec (.scantick now) s = .next quiet) ∧
    (s.scanState = .stepping → s.txActive = true → exec (.scantick now) s = .next quiet) ∧
    (s.scanState = .stepping → s.txActive = false → ∃ t,
      s.emits (if s.cfg.nSelect + s.cfg.nAdvance - s.scanRemaining < s.cfg.nSelect then s.cfg.optSelect
        else s.cfg.optAdvance) t ∧
      exec (.scantick now) s = .next { t with
        scanRemaining := s.scanRemaining - 1
        scanState := if s.scanRemaining - 1 = 0 then .awaitingLabel else .stepping
        responses := s.responses ++ [⟨.ok, .scanOut true false false⟩] })

/-- SCANTICK in AwaitingLabel and AwaitingValue (R116): label, blank, debounce, transmitter, capture. -/
def Obligations.ScantickCapturesValues : Prop :=
  ∀ (s : State) (now : Word), wellFormedConfig s.cfg = true → s.isHeatPump →
    let text := s.displayText
    let label := s.cfg.labels.getD s.scanIndex []
    let held := (∀ x ∈ text, x = ch ' ') ∨ (now - s.labelSeenAt).toNat ≤ s.cfg.debounce.toNat ∨ s.txActive = true
    let quiet := ({ s with responses := s.responses ++ [⟨.ok, .scanOut false false false⟩] } : State)
    (s.scanState = .awaitingLabel → text ≠ label → exec (.scantick now) s = .next quiet) ∧
    (s.scanState = .awaitingLabel → text = label →
      exec (.scantick now) s = .next { quiet with labelSeenAt := now, scanState := .awaitingValue }) ∧
    (s.scanState = .awaitingValue → text = label →
      exec (.scantick now) s = .next { quiet with labelSeenAt := now }) ∧
    (s.scanState = .awaitingValue → text ≠ label → held → exec (.scantick now) s = .next quiet) ∧
    (s.scanState = .awaitingValue → text ≠ label → ¬ held → ∃ t, s.emits s.cfg.optAdvance t ∧
      (s.scanIndex + 1 < 27 → exec (.scantick now) s = .next { t with
        props := s.props.set s.scanIndex (BitVec.ofInt 32 (alphaToInt text)), scanIndex := s.scanIndex + 1
        scanState := .awaitingLabel
        responses := s.responses ++ [⟨.ok, .scanOut true true false⟩] }) ∧
      (27 ≤ s.scanIndex + 1 → exec (.scantick now) s = .next { t with
        props := s.props.set s.scanIndex (BitVec.ofInt 32 (alphaToInt text)), scanIndex := s.scanIndex + 1
        scanState := .idle, passEndTime := now, passDone := true
        responses := s.responses ++ [⟨.ok, .scanOut true true true⟩] }))

/-- PROPSNAP (R117); under the generic variant SCANSTART and SCANTICK answer ILLEGAL_OP, and so does PROPSNAP (R122,
notes/assumptions/14.md, DEDUCED). -/
def Obligations.PropsnapReadsTheCatalogue : Prop :=
  ∀ (s : State) (now : Word),
    (s.isHeatPump → exec .propsnap s = .next { s with responses := s.responses ++
      [⟨.ok, .properties (s.cfg.labels.zip (s.props.map BitVec.toInt))⟩] }) ∧
    (s.cfg.variant = .generic →
      let illegal := (.next { s with responses := s.responses ++ [⟨.illegalOp, .empty⟩] } : Out)
      exec (.scanstart now) s = illegal ∧ exec (.scantick now) s = illegal ∧ exec .propsnap s = illegal)

/-! ### Messages on the wire -/

/-- A wire message of any of the three kinds is offered to the receiver as `N` RXEDGE events ahead of everything else,
the first at the given time and each of the others one pulse after the one before; nothing else changes. That a MSG row
stands for this is the model's choice (notes/assumptions/12.md). -/
def Obligations.WireMessagesBecomeEdges : Prop :=
  ∀ (s : State) (buf : List Byte) (now : Word), ∃ times : List Word,
    times.length = s.cfg.tableLen ∧
    (∀ j < s.cfg.tableLen, times.getD j 0 = now + ((List.range j).map fun k => pulse s.cfg buf k).sum) ∧
    (∀ i ∈ [Instr.msgCommand buf now, .msgOption buf now, .msgFollowme buf now],
      exec i s = .next { s with inbox := times.map (fun t => .event (0 :: putWord t)) ++ s.inbox })
end

