-- ==== Sys2Proof/Laws/Bits.lean ====
section
/-! SUPPORT. The bit operations on buffers: every one keeps the buffer's length, and one written bit changes that bit and
no other. -/

namespace Sys2Proof.Machine

@[simp] theorem length_setBitG (buf : List Byte) (g : Nat) : (setBitG buf g).length = buf.length := by
  simp [setBitG]

@[simp] theorem length_putBitG (buf : List Byte) (g : Nat) (v : Bool) : (putBitG buf g v).length = buf.length := by
  simp [putBitG]

@[simp] theorem length_putBitsG (w : Nat) (buf : List Byte) (g v : Nat) :
    (putBitsG buf g v w).length = buf.length := by
  induction w generalizing buf g with
  | zero => rfl
  | succ w ih => simp [putBitsG, ih]

@[simp] theorem length_putField (buf : List Byte) (f : Field) (v : Nat) : (putField buf f v).length = buf.length := by
  simp [putField]

@[simp] theorem length_clearPadding (n : Nat) (buf : List Byte) : (clearPadding n buf).length = buf.length := by
  unfold clearPadding; split <;> simp

/-- The mask of a bit, as an index: bit 7 of the byte is bit 0 of the buffer. -/
theorem bitMask_eq (g : Nat) : bitMask g = 1#8 <<< (7 - g % 8) := by
  have h : g % 8 < 8 := Nat.mod_lt _ (by decide)
  have key : ∀ k < 8, (0x80#8 >>> k) = 1#8 <<< (7 - k) := by decide
  exact key _ h

theorem getLsbD_bitMask (g i : Nat) (hi : i < 8) : (bitMask g).getLsbD i = decide (i = 7 - g % 8) := by
  have h : g % 8 < 8 := Nat.mod_lt _ (by decide)
  have key : ∀ k < 8, ∀ i < 8, (1#8 <<< (7 - k)).getLsbD i = decide (i = 7 - k) := by decide
  rw [bitMask_eq]; exact key _ h _ hi

/-- A byte masked by a bit's mask is nonzero exactly when that bit is set. -/
theorem and_bitMask_ne_zero (b : Byte) (g : Nat) : decide (b &&& bitMask g ≠ 0) = b.getLsbD (7 - g % 8) := by
  have h : 7 - g % 8 < 8 := by omega
  cases hb : b.getLsbD (7 - g % 8) with
  | true =>
    simp only [ne_eq, decide_eq_true_eq]
    intro hz
    have := congrArg (fun x : Byte => x.getLsbD (7 - g % 8)) hz
    simp [BitVec.getLsbD_and, hb, getLsbD_bitMask g _ h] at this
  | false =>
    simp only [ne_eq, decide_eq_false_iff_not, not_not]
    apply BitVec.eq_of_getLsbD_eq
    intro i hi
    rw [BitVec.getLsbD_and, getLsbD_bitMask g i hi]
    by_cases hk : i = 7 - g % 8
    · simp [hk, hb]
    · simp [hk]

/-- A bit of a buffer is a bit of one of its bytes. -/
theorem getBitG_eq (buf : List Byte) (g : Nat) : getBitG buf g = (buf.getD (g / 8) 0).getLsbD (7 - g % 8) :=
  and_bitMask_ne_zero _ _

/-- A written bit reads as written, and every other bit as before. -/
theorem getBitG_putBitG (buf : List Byte) (g h : Nat) (v : Bool) (hg : g / 8 < buf.length) :
    getBitG (putBitG buf g v) h = if h = g then v else getBitG buf h := by
  have hh : 7 - h % 8 < 8 := by omega
  rw [getBitG_eq, getBitG_eq, putBitG]
  by_cases hb : h / 8 = g / 8
  · have e : (buf.modify (g / 8) fun b => if v then b ||| bitMask g else b &&& ~~~(bitMask g)).getD (h / 8) 0 =
        (fun b : Byte => if v then b ||| bitMask g else b &&& ~~~(bitMask g)) (buf.getD (g / 8) 0) := by
      simp [List.getD_eq_getElem?_getD, hb, hg]
    rw [e, hb]
    have hiff : (7 - h % 8 = 7 - g % 8) ↔ h = g := by omega
    cases v <;> simp only [Bool.false_eq_true, if_false, if_true, BitVec.getLsbD_and, BitVec.getLsbD_or,
      BitVec.getLsbD_not, getLsbD_bitMask g _ hh, hiff, hh, decide_true, Bool.true_and] <;>
      by_cases hk : h = g <;> simp [hk]
  · have hne : h ≠ g := fun e => hb (by rw [e])
    simp [List.getD_eq_getElem?_getD, Ne.symm hb, hne]

/-- A set bit reads 1, and every other bit as before. -/
theorem getBitG_setBitG (buf : List Byte) (g h : Nat) (hg : g / 8 < buf.length) :
    getBitG (setBitG buf g) h = if h = g then true else getBitG buf h :=
  getBitG_putBitG buf g h true hg

/-- A field's code fits its width. -/
theorem getBitsG_lt (w : Nat) (buf : List Byte) (g : Nat) : getBitsG buf g w < 2 ^ w := by
  induction w generalizing g with
  | zero => simp [getBitsG]
  | succ w ih =>
    have h := ih (g + 1)
    simp only [getBitsG, pow_succ]
    cases getBitG buf g <;> simp <;> omega

theorem getField_lt (buf : List Byte) (f : Field) : getField buf f < 2 ^ f.width := getBitsG_lt _ _ _

end Sys2Proof.Machine
end

