-- ==== Sys2Proof/Laws/Config.lean ====
section
/-! SUPPORT. What a well-formed configuration (spec/00_scope.md R6) gives a proof, one lemma per group of constraints. -/

namespace Sys2Proof.Machine

variable {c : Configuration}

/-- The counts are positive (R5). -/
theorem wf_counts (h : wellFormedConfig c = true) : 1 ≤ c.sampleCount ∧ 1 ≤ c.bitCount ∧ 1 ≤ c.syncCount := by
  simp only [wellFormedConfig, wfDescriptor, Bool.and_eq_true, decide_eq_true_eq] at h
  tauto

/-- The table and the ring (R5, R145). -/
theorem wf_ring (h : wellFormedConfig c = true) :
    c.tableLen < c.ringCap ∧ c.threshold + 1 < c.ringCap ∧ c.syncCount ≤ c.ringCap := by
  simp only [wellFormedConfig, wfPlatform, Bool.and_eq_true, decide_eq_true_eq] at h
  tauto

theorem wf_tableLen_pos (h : wellFormedConfig c = true) : 0 < c.tableLen := by
  obtain ⟨h1, -, h3⟩ := wf_counts h
  exact Nat.mul_pos h1 (by unfold Configuration.frameLen; omega)

theorem wf_syncWindows (h : wellFormedConfig c = true) : c.syncWindows.length = c.syncCount := by
  simp only [wellFormedConfig, wfDescriptor, Bool.and_eq_true, decide_eq_true_eq] at h
  tauto

/-- Every window of the descriptor is the one R53 builds from its nominal. -/
theorem wf_windows (h : wellFormedConfig c = true) (w : Window) (hw : w ∈ windowsOf c) :
    mkWindow w.nominal c.epsNum c.epsDen = some w := by
  simp only [wellFormedConfig, wfDescriptor, Bool.and_eq_true, decide_eq_true_eq, List.all_eq_true, builtByR53,
    beq_iff_eq] at h
  exact h.1.1.1.1.1.2 w hw

/-- The zero, one and break windows share no duration (R5, D28). -/
theorem wf_disjoint (h : wellFormedConfig c = true) :
    disjointWindows c.zeroWindow c.oneWindow = true ∧
      (c.brk = 1 → disjointWindows c.zeroWindow c.breakWindow = true ∧
        disjointWindows c.oneWindow c.breakWindow = true) := by
  simp only [wellFormedConfig, wfDescriptor, Bool.and_eq_true, Bool.or_eq_true, decide_eq_true_eq] at h
  refine ⟨h.1.1.1.1.2, fun hb => ?_⟩
  rcases h.1.1.1.2 with h0 | h0
  · omega
  · exact h0

/-- A heat-pump message is two samples of whole bytes (R5, D33). -/
theorem wf_heatPump (h : wellFormedConfig c = true) (hv : c.variant = .heatPump) :
    c.sampleCount = 2 ∧ c.bitCount = 8 * (c.payloadBytes + 1) ∧ 1 ≤ c.payloadBytes ∧
      c.msgLen = 2 * (c.payloadBytes + 1) := by
  have h1 : c.sampleCount = 2 ∧ c.bitCount % 8 = 0 ∧ 16 ≤ c.bitCount := by
    simp only [wellFormedConfig, wfDescriptor, Bool.and_eq_true, decide_eq_true_eq] at h
    tauto
  obtain ⟨h1, h2, h3⟩ := h1
  have h4 : c.bitCount = 8 * (c.payloadBytes + 1) := by unfold Configuration.payloadBytes; omega
  refine ⟨h1, h4, by unfold Configuration.payloadBytes; omega, ?_⟩
  unfold Configuration.msgLen; rw [h1]; omega

/-- The codec's constraints bind the heat-pump variant (notes/assumptions/7.md). -/
theorem wf_codec (h : wellFormedConfig c = true) (hv : c.variant = .heatPump) : wfCodec c = true := by
  simp only [wellFormedConfig, Bool.and_eq_true, Bool.or_eq_true, decide_eq_true_eq, hv] at h
  simpa using h.2

/-- The instruction byte (R5, R43): the marker and kind masks share no bit. -/
theorem wf_instructionByte (h : wellFormedConfig c = true) (hv : c.variant = .heatPump) :
    c.markerMask &&& c.kindMask = 0 := by
  have h1 := wf_codec h hv
  simp only [wfCodec, wfInstructionByte, Bool.and_eq_true, beq_iff_eq] at h1
  tauto

/-- Every field of `FIELDMAP` lies inside payload bytes 1..PB-1 (R5). -/
theorem wf_field (h : wellFormedConfig c = true) (hv : c.variant = .heatPump) (f : Field)
    (hf : f ∈ commandFields c.fieldMap ++
      [c.fieldMap.status, c.fieldMap.time, c.fieldMap.option, c.fieldMap.fmState, c.fieldMap.fmTemp]) :
    1 ≤ f.width ∧ 8 ≤ f.start ∧ f.start + f.width ≤ 8 * c.payloadBytes := by
  have h1 := wf_codec h hv
  simp only [wfCodec, wfFieldMap, Bool.and_eq_true, List.all_eq_true] at h1
  have h2 := h1.1.1.1.2.1.1 f hf
  simpa [wfField] using h2

/-- The fields of a Command and of a FollowMe share no bit (R5). -/
theorem wf_disjointFields (h : wellFormedConfig c = true) (hv : c.variant = .heatPump) :
    pairwiseDisjoint (commandFields c.fieldMap ++ [c.fieldMap.status, c.fieldMap.time]) = true ∧
    pairwiseDisjoint (commandFields c.fieldMap ++ [c.fieldMap.fmState, c.fieldMap.fmTemp]) = true := by
  have h1 := wf_codec h hv
  simp only [wfCodec, wfFieldMap, Bool.and_eq_true] at h1
  tauto

/-- The codes of the enumerations (R5): injective, and each a code of its field. -/
theorem wf_enums (h : wellFormedConfig c = true) (hv : c.variant = .heatPump) :
    wfCodes c.fieldMap.mode
      [c.modeCode.auto, c.modeCode.cool, c.modeCode.dry, c.modeCode.heat, c.modeCode.fan] = true ∧
    wfCodes c.fieldMap.fan [c.fanCode.auto, c.fanCode.low, c.fanCode.medium, c.fanCode.high] = true ∧
    wfCodes c.fieldMap.fmState [c.fmStateCode.start, c.fmStateCode.update, c.fmStateCode.stop] = true := by
  have h1 := wf_codec h hv
  simp only [wfCodec, wfEnums, Bool.and_eq_true] at h1
  tauto

/-- A mode's code fits its field, and the code decodes to the mode and no other. -/
theorem wf_modeCode (h : wellFormedConfig c = true) (hv : c.variant = .heatPump) (m : Mode) :
    modeCodeOf c m < 2 ^ c.fieldMap.mode.width ∧ ∀ k, modeOfCode c k = some m ↔ k = modeCodeOf c m := by
  have h1 := (wf_enums h hv).1
  simp [wfCodes] at h1
  obtain ⟨⟨⟨a1, a2, a3, a4⟩, ⟨b1, b2, b3⟩, ⟨c1, c2⟩, d1⟩, f1, f2, f3, f4, f5⟩ := h1
  constructor
  · cases m <;> simp [modeCodeOf, *]
  · intro k
    simp only [modeOfCode, List.find?_cons, List.find?_nil, modeCodeOf]
    constructor
    · intro he
      repeat' split at he
      all_goals first | (cases he; done) | (injection he with he; subst he; simp_all)
    · rintro rfl
      cases m <;> (repeat' split) <;> simp_all

/-- A fan speed's code fits its field, and the code decodes to the speed and no other. -/
theorem wf_fanCode (h : wellFormedConfig c = true) (hv : c.variant = .heatPump) (f : Fan) :
    fanCodeOf c f < 2 ^ c.fieldMap.fan.width ∧ ∀ k, fanOfCode c k = some f ↔ k = fanCodeOf c f := by
  have h1 := (wf_enums h hv).2.1
  simp [wfCodes] at h1
  obtain ⟨⟨⟨a1, a2, a3⟩, ⟨b1, b2⟩, c1⟩, f1, f2, f3, f4⟩ := h1
  constructor
  · cases f <;> simp [fanCodeOf, *]
  · intro k
    simp only [fanOfCode, List.find?_cons, List.find?_nil, fanCodeOf]
    constructor
    · intro he
      repeat' split at he
      all_goals first | (cases he; done) | (injection he with he; subst he; simp_all)
    · rintro rfl
      cases f <;> (repeat' split) <;> simp_all

/-- A lifecycle state's code fits its field, and the code decodes to the state and no other. -/
theorem wf_fmStateCode (h : wellFormedConfig c = true) (hv : c.variant = .heatPump) (x : FmState) :
    fmStateCodeOf c x < 2 ^ c.fieldMap.fmState.width ∧ ∀ k, fmStateOfCode c k = some x ↔ k = fmStateCodeOf c x := by
  have h1 := (wf_enums h hv).2.2
  simp [wfCodes] at h1
  obtain ⟨⟨⟨a1, a2⟩, b1⟩, f1, f2, f3⟩ := h1
  constructor
  · cases x <;> simp [fmStateCodeOf, *]
  · intro k
    simp only [fmStateOfCode, List.find?_cons, List.find?_nil, fmStateCodeOf]
    constructor
    · intro he
      repeat' split at he
      all_goals first | (cases he; done) | (injection he with he; subst he; simp_all)
    · rintro rfl
      cases x <;> (repeat' split) <;> simp_all

/-- A temperature in range has a code of its field (R5, R46). -/
theorem wf_temperatures (h : wellFormedConfig c = true) (hv : c.variant = .heatPump) :
    (0 ≤ c.tempMin - c.tempOffset ∧ c.tempMax - c.tempOffset < 2 ^ c.fieldMap.temp.width) ∧
    (0 ≤ c.fmTempMin - c.fmTempOffset ∧ c.fmTempMax - c.fmTempOffset < 2 ^ c.fieldMap.fmTemp.width) := by
  have h1 := wf_codec h hv
  simp only [wfCodec, wfTemperatures, wfRange, Bool.and_eq_true, decide_eq_true_eq] at h1
  tauto

/-- An option of `OPTION_SET` is a code of the option field, and the scanner's two options are in it (R5). -/
theorem wf_options (h : wellFormedConfig c = true) (hv : c.variant = .heatPump) :
    (∀ o ∈ c.optionSet, o.toNat < 2 ^ c.fieldMap.option.width) ∧
    c.optSelect ∈ c.optionSet ∧ c.optAdvance ∈ c.optionSet := by
  have h1 := wf_codec h hv
  simp only [wfCodec, wfOptions, Bool.and_eq_true, List.all_eq_true, decide_eq_true_eq, List.contains_iff_mem] at h1
  tauto

end Sys2Proof.Machine
end

