-- ==== Sys2Proof/Laws/State.lean ====
section
/-! SUPPORT. One lemma per field per update of State: what a named operation makes of each field, so that no later proof
unfolds a record update. -/

namespace Sys2Proof.Machine

variable (s : State)

/-! ### respond -/

@[simp] theorem State.respond_cfg (st : Status) (r : Result) : (s.respond st r).cfg = s.cfg := rfl
@[simp] theorem State.respond_ring (st : Status) (r : Result) : (s.respond st r).ring = s.ring := rfl
@[simp] theorem State.respond_wrIdx (st : Status) (r : Result) : (s.respond st r).wrIdx = s.wrIdx := rfl
@[simp] theorem State.respond_lastEdgeTime (st : Status) (r : Result) :
    (s.respond st r).lastEdgeTime = s.lastEdgeTime := rfl
@[simp] theorem State.respond_rxState (st : Status) (r : Result) : (s.respond st r).rxState = s.rxState := rfl
@[simp] theorem State.respond_preambleIdx (st : Status) (r : Result) :
    (s.respond st r).preambleIdx = s.preambleIdx := rfl
@[simp] theorem State.respond_edgeCount (st : Status) (r : Result) : (s.respond st r).edgeCount = s.edgeCount := rfl
@[simp] theorem State.respond_repeatEdgeCount (st : Status) (r : Result) :
    (s.respond st r).repeatEdgeCount = s.repeatEdgeCount := rfl
@[simp] theorem State.respond_received (st : Status) (r : Result) : (s.respond st r).received = s.received := rfl
@[simp] theorem State.respond_listening (st : Status) (r : Result) : (s.respond st r).listening = s.listening := rfl
@[simp] theorem State.respond_msgBuf (st : Status) (r : Result) : (s.respond st r).msgBuf = s.msgBuf := rfl
@[simp] theorem State.respond_txTable (st : Status) (r : Result) : (s.respond st r).txTable = s.txTable := rfl
@[simp] theorem State.respond_txIdx (st : Status) (r : Result) : (s.respond st r).txIdx = s.txIdx := rfl
@[simp] theorem State.respond_txActive (st : Status) (r : Result) : (s.respond st r).txActive = s.txActive := rfl
@[simp] theorem State.respond_txCompare (st : Status) (r : Result) : (s.respond st r).txCompare = s.txCompare := rfl
@[simp] theorem State.respond_txPin (st : Status) (r : Result) : (s.respond st r).txPin = s.txPin := rfl
@[simp] theorem State.respond_hostBlocked (st : Status) (r : Result) :
    (s.respond st r).hostBlocked = s.hostBlocked := rfl
@[simp] theorem State.respond_cm (st : Status) (r : Result) : (s.respond st r).cm = s.cm := rfl
@[simp] theorem State.respond_validSample (st : Status) (r : Result) :
    (s.respond st r).validSample = s.validSample := rfl
@[simp] theorem State.respond_seqNo (st : Status) (r : Result) : (s.respond st r).seqNo = s.seqNo := rfl
@[simp] theorem State.respond_lastSampleTime (st : Status) (r : Result) :
    (s.respond st r).lastSampleTime = s.lastSampleTime := rfl
@[simp] theorem State.respond_dRaw (st : Status) (r : Result) : (s.respond st r).dRaw = s.dRaw := rfl
@[simp] theorem State.respond_dShadow (st : Status) (r : Result) : (s.respond st r).dShadow = s.dShadow := rfl
@[simp] theorem State.respond_dByte (st : Status) (r : Result) : (s.respond st r).dByte = s.dByte := rfl
@[simp] theorem State.respond_dBitPos (st : Status) (r : Result) : (s.respond st r).dBitPos = s.dBitPos := rfl
@[simp] theorem State.respond_dBytePos (st : Status) (r : Result) : (s.respond st r).dBytePos = s.dBytePos := rfl
@[simp] theorem State.respond_dReady (st : Status) (r : Result) : (s.respond st r).dReady = s.dReady := rfl
@[simp] theorem State.respond_dListening (st : Status) (r : Result) : (s.respond st r).dListening = s.dListening := rfl
@[simp] theorem State.respond_scanState (st : Status) (r : Result) : (s.respond st r).scanState = s.scanState := rfl
@[simp] theorem State.respond_scanRemaining (st : Status) (r : Result) :
    (s.respond st r).scanRemaining = s.scanRemaining := rfl
@[simp] theorem State.respond_scanIndex (st : Status) (r : Result) : (s.respond st r).scanIndex = s.scanIndex := rfl
@[simp] theorem State.respond_labelSeenAt (st : Status) (r : Result) :
    (s.respond st r).labelSeenAt = s.labelSeenAt := rfl
@[simp] theorem State.respond_props (st : Status) (r : Result) : (s.respond st r).props = s.props := rfl
@[simp] theorem State.respond_passEndTime (st : Status) (r : Result) :
    (s.respond st r).passEndTime = s.passEndTime := rfl
@[simp] theorem State.respond_passDone (st : Status) (r : Result) : (s.respond st r).passDone = s.passDone := rfl
@[simp] theorem State.respond_hasupd (st : Status) (r : Result) : (s.respond st r).hasupd = s.hasupd := rfl
@[simp] theorem State.respond_inbox (st : Status) (r : Result) : (s.respond st r).inbox = s.inbox := rfl
@[simp] theorem State.respond_responses (st : Status) (r : Result) :
    (s.respond st r).responses = s.responses ++ [⟨st, r⟩] := rfl
@[simp] theorem State.respond_toggles (st : Status) (r : Result) : (s.respond st r).toggles = s.toggles := rfl

/-! ### ringWrite -/

@[simp] theorem State.ringWrite_cfg (i : Nat) (v : Word) : (s.ringWrite i v).cfg = s.cfg := rfl
@[simp] theorem State.ringWrite_ring (i : Nat) (v : Word) :
    (s.ringWrite i v).ring = s.ring.set (i % s.cfg.ringCap) v := rfl
@[simp] theorem State.ringWrite_wrIdx (i : Nat) (v : Word) : (s.ringWrite i v).wrIdx = s.wrIdx := rfl
@[simp] theorem State.ringWrite_lastEdgeTime (i : Nat) (v : Word) :
    (s.ringWrite i v).lastEdgeTime = s.lastEdgeTime := rfl
@[simp] theorem State.ringWrite_rxState (i : Nat) (v : Word) : (s.ringWrite i v).rxState = s.rxState := rfl
@[simp] theorem State.ringWrite_preambleIdx (i : Nat) (v : Word) : (s.ringWrite i v).preambleIdx = s.preambleIdx := rfl
@[simp] theorem State.ringWrite_edgeCount (i : Nat) (v : Word) : (s.ringWrite i v).edgeCount = s.edgeCount := rfl
@[simp] theorem State.ringWrite_repeatEdgeCount (i : Nat) (v : Word) :
    (s.ringWrite i v).repeatEdgeCount = s.repeatEdgeCount := rfl
@[simp] theorem State.ringWrite_received (i : Nat) (v : Word) : (s.ringWrite i v).received = s.received := rfl
@[simp] theorem State.ringWrite_listening (i : Nat) (v : Word) : (s.ringWrite i v).listening = s.listening := rfl
@[simp] theorem State.ringWrite_msgBuf (i : Nat) (v : Word) : (s.ringWrite i v).msgBuf = s.msgBuf := rfl
@[simp] theorem State.ringWrite_txTable (i : Nat) (v : Word) : (s.ringWrite i v).txTable = s.txTable := rfl
@[simp] theorem State.ringWrite_txIdx (i : Nat) (v : Word) : (s.ringWrite i v).txIdx = s.txIdx := rfl
@[simp] theorem State.ringWrite_txActive (i : Nat) (v : Word) : (s.ringWrite i v).txActive = s.txActive := rfl
@[simp] theorem State.ringWrite_txCompare (i : Nat) (v : Word) : (s.ringWrite i v).txCompare = s.txCompare := rfl
@[simp] theorem State.ringWrite_txPin (i : Nat) (v : Word) : (s.ringWrite i v).txPin = s.txPin := rfl
@[simp] theorem State.ringWrite_hostBlocked (i : Nat) (v : Word) : (s.ringWrite i v).hostBlocked = s.hostBlocked := rfl
@[simp] theorem State.ringWrite_cm (i : Nat) (v : Word) : (s.ringWrite i v).cm = s.cm := rfl
@[simp] theorem State.ringWrite_validSample (i : Nat) (v : Word) : (s.ringWrite i v).validSample = s.validSample := rfl
@[simp] theorem State.ringWrite_seqNo (i : Nat) (v : Word) : (s.ringWrite i v).seqNo = s.seqNo := rfl
@[simp] theorem State.ringWrite_lastSampleTime (i : Nat) (v : Word) :
    (s.ringWrite i v).lastSampleTime = s.lastSampleTime := rfl
@[simp] theorem State.ringWrite_dRaw (i : Nat) (v : Word) : (s.ringWrite i v).dRaw = s.dRaw := rfl
@[simp] theorem State.ringWrite_dShadow (i : Nat) (v : Word) : (s.ringWrite i v).dShadow = s.dShadow := rfl
@[simp] theorem State.ringWrite_dByte (i : Nat) (v : Word) : (s.ringWrite i v).dByte = s.dByte := rfl
@[simp] theorem State.ringWrite_dBitPos (i : Nat) (v : Word) : (s.ringWrite i v).dBitPos = s.dBitPos := rfl
@[simp] theorem State.ringWrite_dBytePos (i : Nat) (v : Word) : (s.ringWrite i v).dBytePos = s.dBytePos := rfl
@[simp] theorem State.ringWrite_dReady (i : Nat) (v : Word) : (s.ringWrite i v).dReady = s.dReady := rfl
@[simp] theorem State.ringWrite_dListening (i : Nat) (v : Word) : (s.ringWrite i v).dListening = s.dListening := rfl
@[simp] theorem State.ringWrite_scanState (i : Nat) (v : Word) : (s.ringWrite i v).scanState = s.scanState := rfl
@[simp] theorem State.ringWrite_scanRemaining (i : Nat) (v : Word) :
    (s.ringWrite i v).scanRemaining = s.scanRemaining := rfl
@[simp] theorem State.ringWrite_scanIndex (i : Nat) (v : Word) : (s.ringWrite i v).scanIndex = s.scanIndex := rfl
@[simp] theorem State.ringWrite_labelSeenAt (i : Nat) (v : Word) : (s.ringWrite i v).labelSeenAt = s.labelSeenAt := rfl
@[simp] theorem State.ringWrite_props (i : Nat) (v : Word) : (s.ringWrite i v).props = s.props := rfl
@[simp] theorem State.ringWrite_passEndTime (i : Nat) (v : Word) : (s.ringWrite i v).passEndTime = s.passEndTime := rfl
@[simp] theorem State.ringWrite_passDone (i : Nat) (v : Word) : (s.ringWrite i v).passDone = s.passDone := rfl
@[simp] theorem State.ringWrite_hasupd (i : Nat) (v : Word) : (s.ringWrite i v).hasupd = s.hasupd := rfl
@[simp] theorem State.ringWrite_inbox (i : Nat) (v : Word) : (s.ringWrite i v).inbox = s.inbox := rfl
@[simp] theorem State.ringWrite_responses (i : Nat) (v : Word) : (s.ringWrite i v).responses = s.responses := rfl
@[simp] theorem State.ringWrite_toggles (i : Nat) (v : Word) : (s.ringWrite i v).toggles = s.toggles := rfl

/-! ### emitToggle -/

@[simp] theorem State.emitToggle_cfg (level : Bool) (ticks : Word) : (s.emitToggle level ticks).cfg = s.cfg := rfl
@[simp] theorem State.emitToggle_ring (level : Bool) (ticks : Word) : (s.emitToggle level ticks).ring = s.ring := rfl
@[simp] theorem State.emitToggle_wrIdx (level : Bool) (ticks : Word) : (s.emitToggle level ticks).wrIdx = s.wrIdx := rfl
@[simp] theorem State.emitToggle_lastEdgeTime (level : Bool) (ticks : Word) :
    (s.emitToggle level ticks).lastEdgeTime = s.lastEdgeTime := rfl
@[simp] theorem State.emitToggle_rxState (level : Bool) (ticks : Word) :
    (s.emitToggle level ticks).rxState = s.rxState := rfl
@[simp] theorem State.emitToggle_preambleIdx (level : Bool) (ticks : Word) :
    (s.emitToggle level ticks).preambleIdx = s.preambleIdx := rfl
@[simp] theorem State.emitToggle_edgeCount (level : Bool) (ticks : Word) :
    (s.emitToggle level ticks).edgeCount = s.edgeCount := rfl
@[simp] theorem State.emitToggle_repeatEdgeCount (level : Bool) (ticks : Word) :
    (s.emitToggle level ticks).repeatEdgeCount = s.repeatEdgeCount := rfl
@[simp] theorem State.emitToggle_received (level : Bool) (ticks : Word) :
    (s.emitToggle level ticks).received = s.received := rfl
@[simp] theorem State.emitToggle_listening (level : Bool) (ticks : Word) :
    (s.emitToggle level ticks).listening = s.listening := rfl
@[simp] theorem State.emitToggle_msgBuf (level : Bool) (ticks : Word) :
    (s.emitToggle level ticks).msgBuf = s.msgBuf := rfl
@[simp] theorem State.emitToggle_txTable (level : Bool) (ticks : Word) :
    (s.emitToggle level ticks).txTable = s.txTable := rfl
@[simp] theorem State.emitToggle_txIdx (level : Bool) (ticks : Word) : (s.emitToggle level ticks).txIdx = s.txIdx := rfl
@[simp] theorem State.emitToggle_txActive (level : Bool) (ticks : Word) :
    (s.emitToggle level ticks).txActive = s.txActive := rfl
@[simp] theorem State.emitToggle_txCompare (level : Bool) (ticks : Word) :
    (s.emitToggle level ticks).txCompare = s.txCompare := rfl
@[simp] theorem State.emitToggle_txPin (level : Bool) (ticks : Word) : (s.emitToggle level ticks).txPin = s.txPin := rfl
@[simp] theorem State.emitToggle_hostBlocked (level : Bool) (ticks : Word) :
    (s.emitToggle level ticks).hostBlocked = s.hostBlocked := rfl
@[simp] theorem State.emitToggle_cm (level : Bool) (ticks : Word) : (s.emitToggle level ticks).cm = s.cm := rfl
@[simp] theorem State.emitToggle_validSample (level : Bool) (ticks : Word) :
    (s.emitToggle level ticks).validSample = s.validSample := rfl
@[simp] theorem State.emitToggle_seqNo (level : Bool) (ticks : Word) : (s.emitToggle level ticks).seqNo = s.seqNo := rfl
@[simp] theorem State.emitToggle_lastSampleTime (level : Bool) (ticks : Word) :
    (s.emitToggle level ticks).lastSampleTime = s.lastSampleTime := rfl
@[simp] theorem State.emitToggle_dRaw (level : Bool) (ticks : Word) : (s.emitToggle level ticks).dRaw = s.dRaw := rfl
@[simp] theorem State.emitToggle_dShadow (level : Bool) (ticks : Word) :
    (s.emitToggle level ticks).dShadow = s.dShadow := rfl
@[simp] theorem State.emitToggle_dByte (level : Bool) (ticks : Word) : (s.emitToggle level ticks).dByte = s.dByte := rfl
@[simp] theorem State.emitToggle_dBitPos (level : Bool) (ticks : Word) :
    (s.emitToggle level ticks).dBitPos = s.dBitPos := rfl
@[simp] theorem State.emitToggle_dBytePos (level : Bool) (ticks : Word) :
    (s.emitToggle level ticks).dBytePos = s.dBytePos := rfl
@[simp] theorem State.emitToggle_dReady (level : Bool) (ticks : Word) :
    (s.emitToggle level ticks).dReady = s.dReady := rfl
@[simp] theorem State.emitToggle_dListening (level : Bool) (ticks : Word) :
    (s.emitToggle level ticks).dListening = s.dListening := rfl
@[simp] theorem State.emitToggle_scanState (level : Bool) (ticks : Word) :
    (s.emitToggle level ticks).scanState = s.scanState := rfl
@[simp] theorem State.emitToggle_scanRemaining (level : Bool) (ticks : Word) :
    (s.emitToggle level ticks).scanRemaining = s.scanRemaining := rfl
@[simp] theorem State.emitToggle_scanIndex (level : Bool) (ticks : Word) :
    (s.emitToggle level ticks).scanIndex = s.scanIndex := rfl
@[simp] theorem State.emitToggle_labelSeenAt (level : Bool) (ticks : Word) :
    (s.emitToggle level ticks).labelSeenAt = s.labelSeenAt := rfl
@[simp] theorem State.emitToggle_props (level : Bool) (ticks : Word) : (s.emitToggle level ticks).props = s.props := rfl
@[simp] theorem State.emitToggle_passEndTime (level : Bool) (ticks : Word) :
    (s.emitToggle level ticks).passEndTime = s.passEndTime := rfl
@[simp] theorem State.emitToggle_passDone (level : Bool) (ticks : Word) :
    (s.emitToggle level ticks).passDone = s.passDone := rfl
@[simp] theorem State.emitToggle_hasupd (level : Bool) (ticks : Word) :
    (s.emitToggle level ticks).hasupd = s.hasupd := rfl
@[simp] theorem State.emitToggle_inbox (level : Bool) (ticks : Word) : (s.emitToggle level ticks).inbox = s.inbox := rfl
@[simp] theorem State.emitToggle_responses (level : Bool) (ticks : Word) :
    (s.emitToggle level ticks).responses = s.responses := rfl
@[simp] theorem State.emitToggle_toggles (level : Bool) (ticks : Word) :
    (s.emitToggle level ticks).toggles = s.toggles ++ [⟨level, ticks⟩] := rfl

/-! ### startTransmission -/

@[simp] theorem State.startTransmission_cfg (m : List Byte) : (s.startTransmission m).cfg = s.cfg := rfl
@[simp] theorem State.startTransmission_ring (m : List Byte) : (s.startTransmission m).ring = s.ring := rfl
@[simp] theorem State.startTransmission_wrIdx (m : List Byte) : (s.startTransmission m).wrIdx = s.wrIdx := rfl
@[simp] theorem State.startTransmission_lastEdgeTime (m : List Byte) :
    (s.startTransmission m).lastEdgeTime = s.lastEdgeTime := rfl
@[simp] theorem State.startTransmission_rxState (m : List Byte) : (s.startTransmission m).rxState = s.rxState := rfl
@[simp] theorem State.startTransmission_preambleIdx (m : List Byte) :
    (s.startTransmission m).preambleIdx = s.preambleIdx := rfl
@[simp] theorem State.startTransmission_edgeCount (m : List Byte) :
    (s.startTransmission m).edgeCount = s.edgeCount := rfl
@[simp] theorem State.startTransmission_repeatEdgeCount (m : List Byte) :
    (s.startTransmission m).repeatEdgeCount = s.repeatEdgeCount := rfl
@[simp] theorem State.startTransmission_received (m : List Byte) : (s.startTransmission m).received = s.received := rfl
@[simp] theorem State.startTransmission_listening (m : List Byte) :
    (s.startTransmission m).listening = s.listening := rfl
@[simp] theorem State.startTransmission_msgBuf (m : List Byte) :
    (s.startTransmission m).msgBuf = clearPadding (s.cfg.sampleCount * s.cfg.bitCount) m := rfl
@[simp] theorem State.startTransmission_txTable (m : List Byte) :
    (s.startTransmission m).txTable = pulseTable s.cfg m := rfl
@[simp] theorem State.startTransmission_txIdx (m : List Byte) : (s.startTransmission m).txIdx = 0 := rfl
@[simp] theorem State.startTransmission_txActive (m : List Byte) : (s.startTransmission m).txActive = true := rfl
@[simp] theorem State.startTransmission_txCompare (m : List Byte) :
    (s.startTransmission m).txCompare = (pulseTable s.cfg m).getD 0 0 := rfl
@[simp] theorem State.startTransmission_txPin (m : List Byte) : (s.startTransmission m).txPin = true := rfl
@[simp] theorem State.startTransmission_hostBlocked (m : List Byte) :
    (s.startTransmission m).hostBlocked = s.hostBlocked := rfl
@[simp] theorem State.startTransmission_cm (m : List Byte) : (s.startTransmission m).cm = s.cm := rfl
@[simp] theorem State.startTransmission_validSample (m : List Byte) :
    (s.startTransmission m).validSample = s.validSample := rfl
@[simp] theorem State.startTransmission_seqNo (m : List Byte) : (s.startTransmission m).seqNo = s.seqNo := rfl
@[simp] theorem State.startTransmission_lastSampleTime (m : List Byte) :
    (s.startTransmission m).lastSampleTime = s.lastSampleTime := rfl
@[simp] theorem State.startTransmission_dRaw (m : List Byte) : (s.startTransmission m).dRaw = s.dRaw := rfl
@[simp] theorem State.startTransmission_dShadow (m : List Byte) : (s.startTransmission m).dShadow = s.dShadow := rfl
@[simp] theorem State.startTransmission_dByte (m : List Byte) : (s.startTransmission m).dByte = s.dByte := rfl
@[simp] theorem State.startTransmission_dBitPos (m : List Byte) : (s.startTransmission m).dBitPos = s.dBitPos := rfl
@[simp] theorem State.startTransmission_dBytePos (m : List Byte) : (s.startTransmission m).dBytePos = s.dBytePos := rfl
@[simp] theorem State.startTransmission_dReady (m : List Byte) : (s.startTransmission m).dReady = s.dReady := rfl
@[simp] theorem State.startTransmission_dListening (m : List Byte) :
    (s.startTransmission m).dListening = s.dListening := rfl
@[simp] theorem State.startTransmission_scanState (m : List Byte) :
    (s.startTransmission m).scanState = s.scanState := rfl
@[simp] theorem State.startTransmission_scanRemaining (m : List Byte) :
    (s.startTransmission m).scanRemaining = s.scanRemaining := rfl
@[simp] theorem State.startTransmission_scanIndex (m : List Byte) :
    (s.startTransmission m).scanIndex = s.scanIndex := rfl
@[simp] theorem State.startTransmission_labelSeenAt (m : List Byte) :
    (s.startTransmission m).labelSeenAt = s.labelSeenAt := rfl
@[simp] theorem State.startTransmission_props (m : List Byte) : (s.startTransmission m).props = s.props := rfl
@[simp] theorem State.startTransmission_passEndTime (m : List Byte) :
    (s.startTransmission m).passEndTime = s.passEndTime := rfl
@[simp] theorem State.startTransmission_passDone (m : List Byte) : (s.startTransmission m).passDone = s.passDone := rfl
@[simp] theorem State.startTransmission_hasupd (m : List Byte) : (s.startTransmission m).hasupd = s.hasupd := rfl
@[simp] theorem State.startTransmission_inbox (m : List Byte) : (s.startTransmission m).inbox = s.inbox := rfl
@[simp] theorem State.startTransmission_responses (m : List Byte) :
    (s.startTransmission m).responses = s.responses := rfl
@[simp] theorem State.startTransmission_toggles (m : List Byte) :
    (s.startTransmission m).toggles = s.toggles ++ [⟨true, (pulseTable s.cfg m).getD 0 0⟩] := rfl

/-! ### deliverMessage -/

@[simp] theorem State.deliverMessage_cfg (m : List Byte) (now : Word) : (s.deliverMessage m now).cfg = s.cfg := rfl
@[simp] theorem State.deliverMessage_ring (m : List Byte) (now : Word) : (s.deliverMessage m now).ring = s.ring := rfl
@[simp] theorem State.deliverMessage_wrIdx (m : List Byte) (now : Word) :
    (s.deliverMessage m now).wrIdx = s.wrIdx := rfl
@[simp] theorem State.deliverMessage_lastEdgeTime (m : List Byte) (now : Word) :
    (s.deliverMessage m now).lastEdgeTime = s.lastEdgeTime := rfl
@[simp] theorem State.deliverMessage_rxState (m : List Byte) (now : Word) :
    (s.deliverMessage m now).rxState = s.rxState := rfl
@[simp] theorem State.deliverMessage_preambleIdx (m : List Byte) (now : Word) :
    (s.deliverMessage m now).preambleIdx = s.preambleIdx := rfl
@[simp] theorem State.deliverMessage_edgeCount (m : List Byte) (now : Word) :
    (s.deliverMessage m now).edgeCount = s.edgeCount := rfl
@[simp] theorem State.deliverMessage_repeatEdgeCount (m : List Byte) (now : Word) :
    (s.deliverMessage m now).repeatEdgeCount = s.repeatEdgeCount := rfl
@[simp] theorem State.deliverMessage_received (m : List Byte) (now : Word) :
    (s.deliverMessage m now).received = s.received := rfl
@[simp] theorem State.deliverMessage_listening (m : List Byte) (now : Word) :
    (s.deliverMessage m now).listening = s.listening := rfl
@[simp] theorem State.deliverMessage_msgBuf (m : List Byte) (now : Word) :
    (s.deliverMessage m now).msgBuf = s.msgBuf := rfl
@[simp] theorem State.deliverMessage_txTable (m : List Byte) (now : Word) :
    (s.deliverMessage m now).txTable = s.txTable := rfl
@[simp] theorem State.deliverMessage_txIdx (m : List Byte) (now : Word) :
    (s.deliverMessage m now).txIdx = s.txIdx := rfl
@[simp] theorem State.deliverMessage_txActive (m : List Byte) (now : Word) :
    (s.deliverMessage m now).txActive = s.txActive := rfl
@[simp] theorem State.deliverMessage_txCompare (m : List Byte) (now : Word) :
    (s.deliverMessage m now).txCompare = s.txCompare := rfl
@[simp] theorem State.deliverMessage_txPin (m : List Byte) (now : Word) :
    (s.deliverMessage m now).txPin = s.txPin := rfl
@[simp] theorem State.deliverMessage_hostBlocked (m : List Byte) (now : Word) :
    (s.deliverMessage m now).hostBlocked = s.hostBlocked := rfl
@[simp] theorem State.deliverMessage_cm (m : List Byte) (now : Word) : (s.deliverMessage m now).cm = s.cm := rfl
@[simp] theorem State.deliverMessage_validSample (m : List Byte) (now : Word) :
    (s.deliverMessage m now).validSample = s.validSample := rfl
@[simp] theorem State.deliverMessage_seqNo (m : List Byte) (now : Word) :
    (s.deliverMessage m now).seqNo = s.seqNo := rfl
@[simp] theorem State.deliverMessage_lastSampleTime (m : List Byte) (now : Word) :
    (s.deliverMessage m now).lastSampleTime = s.lastSampleTime := rfl
@[simp] theorem State.deliverMessage_dRaw (m : List Byte) (now : Word) : (s.deliverMessage m now).dRaw = s.dRaw := rfl
@[simp] theorem State.deliverMessage_dShadow (m : List Byte) (now : Word) :
    (s.deliverMessage m now).dShadow = s.dShadow := rfl
@[simp] theorem State.deliverMessage_dByte (m : List Byte) (now : Word) :
    (s.deliverMessage m now).dByte = s.dByte := rfl
@[simp] theorem State.deliverMessage_dBitPos (m : List Byte) (now : Word) :
    (s.deliverMessage m now).dBitPos = s.dBitPos := rfl
@[simp] theorem State.deliverMessage_dBytePos (m : List Byte) (now : Word) :
    (s.deliverMessage m now).dBytePos = s.dBytePos := rfl
@[simp] theorem State.deliverMessage_dReady (m : List Byte) (now : Word) :
    (s.deliverMessage m now).dReady = s.dReady := rfl
@[simp] theorem State.deliverMessage_dListening (m : List Byte) (now : Word) :
    (s.deliverMessage m now).dListening = s.dListening := rfl
@[simp] theorem State.deliverMessage_scanState (m : List Byte) (now : Word) :
    (s.deliverMessage m now).scanState = s.scanState := rfl
@[simp] theorem State.deliverMessage_scanRemaining (m : List Byte) (now : Word) :
    (s.deliverMessage m now).scanRemaining = s.scanRemaining := rfl
@[simp] theorem State.deliverMessage_scanIndex (m : List Byte) (now : Word) :
    (s.deliverMessage m now).scanIndex = s.scanIndex := rfl
@[simp] theorem State.deliverMessage_labelSeenAt (m : List Byte) (now : Word) :
    (s.deliverMessage m now).labelSeenAt = s.labelSeenAt := rfl
@[simp] theorem State.deliverMessage_props (m : List Byte) (now : Word) :
    (s.deliverMessage m now).props = s.props := rfl
@[simp] theorem State.deliverMessage_passEndTime (m : List Byte) (now : Word) :
    (s.deliverMessage m now).passEndTime = s.passEndTime := rfl
@[simp] theorem State.deliverMessage_passDone (m : List Byte) (now : Word) :
    (s.deliverMessage m now).passDone = s.passDone := rfl
@[simp] theorem State.deliverMessage_hasupd (m : List Byte) (now : Word) :
    (s.deliverMessage m now).hasupd = s.hasupd := rfl
@[simp] theorem State.deliverMessage_inbox (m : List Byte) (now : Word) :
    (s.deliverMessage m now).inbox = (edgeTimes s.cfg m now 0 s.cfg.tableLen).map (fun t => requestOf (.rxedge t)) ++ s.inbox := rfl
@[simp] theorem State.deliverMessage_responses (m : List Byte) (now : Word) :
    (s.deliverMessage m now).responses = s.responses := rfl
@[simp] theorem State.deliverMessage_toggles (m : List Byte) (now : Word) :
    (s.deliverMessage m now).toggles = s.toggles := rfl

/-! ### storeEdge -/

@[simp] theorem State.storeEdge_cfg (now : Word) : (s.storeEdge now).cfg = s.cfg := rfl
@[simp] theorem State.storeEdge_ring (now : Word) :
    (s.storeEdge now).ring = s.ring.set (s.wrIdx % s.cfg.ringCap) (now - s.lastEdgeTime) := rfl
@[simp] theorem State.storeEdge_wrIdx (now : Word) : (s.storeEdge now).wrIdx = (s.wrIdx + 1) % s.cfg.ringCap := rfl
@[simp] theorem State.storeEdge_lastEdgeTime (now : Word) : (s.storeEdge now).lastEdgeTime = now := rfl
@[simp] theorem State.storeEdge_rxState (now : Word) : (s.storeEdge now).rxState = s.rxState := rfl
@[simp] theorem State.storeEdge_preambleIdx (now : Word) : (s.storeEdge now).preambleIdx = s.preambleIdx := rfl
@[simp] theorem State.storeEdge_edgeCount (now : Word) : (s.storeEdge now).edgeCount = s.edgeCount := rfl
@[simp] theorem State.storeEdge_repeatEdgeCount (now : Word) :
    (s.storeEdge now).repeatEdgeCount = s.repeatEdgeCount := rfl
@[simp] theorem State.storeEdge_received (now : Word) : (s.storeEdge now).received = s.received := rfl
@[simp] theorem State.storeEdge_listening (now : Word) : (s.storeEdge now).listening = s.listening := rfl
@[simp] theorem State.storeEdge_msgBuf (now : Word) : (s.storeEdge now).msgBuf = s.msgBuf := rfl
@[simp] theorem State.storeEdge_txTable (now : Word) : (s.storeEdge now).txTable = s.txTable := rfl
@[simp] theorem State.storeEdge_txIdx (now : Word) : (s.storeEdge now).txIdx = s.txIdx := rfl
@[simp] theorem State.storeEdge_txActive (now : Word) : (s.storeEdge now).txActive = s.txActive := rfl
@[simp] theorem State.storeEdge_txCompare (now : Word) : (s.storeEdge now).txCompare = s.txCompare := rfl
@[simp] theorem State.storeEdge_txPin (now : Word) : (s.storeEdge now).txPin = s.txPin := rfl
@[simp] theorem State.storeEdge_hostBlocked (now : Word) : (s.storeEdge now).hostBlocked = s.hostBlocked := rfl
@[simp] theorem State.storeEdge_cm (now : Word) : (s.storeEdge now).cm = s.cm := rfl
@[simp] theorem State.storeEdge_validSample (now : Word) : (s.storeEdge now).validSample = s.validSample := rfl
@[simp] theorem State.storeEdge_seqNo (now : Word) : (s.storeEdge now).seqNo = s.seqNo := rfl
@[simp] theorem State.storeEdge_lastSampleTime (now : Word) : (s.storeEdge now).lastSampleTime = s.lastSampleTime := rfl
@[simp] theorem State.storeEdge_dRaw (now : Word) : (s.storeEdge now).dRaw = s.dRaw := rfl
@[simp] theorem State.storeEdge_dShadow (now : Word) : (s.storeEdge now).dShadow = s.dShadow := rfl
@[simp] theorem State.storeEdge_dByte (now : Word) : (s.storeEdge now).dByte = s.dByte := rfl
@[simp] theorem State.storeEdge_dBitPos (now : Word) : (s.storeEdge now).dBitPos = s.dBitPos := rfl
@[simp] theorem State.storeEdge_dBytePos (now : Word) : (s.storeEdge now).dBytePos = s.dBytePos := rfl
@[simp] theorem State.storeEdge_dReady (now : Word) : (s.storeEdge now).dReady = s.dReady := rfl
@[simp] theorem State.storeEdge_dListening (now : Word) : (s.storeEdge now).dListening = s.dListening := rfl
@[simp] theorem State.storeEdge_scanState (now : Word) : (s.storeEdge now).scanState = s.scanState := rfl
@[simp] theorem State.storeEdge_scanRemaining (now : Word) : (s.storeEdge now).scanRemaining = s.scanRemaining := rfl
@[simp] theorem State.storeEdge_scanIndex (now : Word) : (s.storeEdge now).scanIndex = s.scanIndex := rfl
@[simp] theorem State.storeEdge_labelSeenAt (now : Word) : (s.storeEdge now).labelSeenAt = s.labelSeenAt := rfl
@[simp] theorem State.storeEdge_props (now : Word) : (s.storeEdge now).props = s.props := rfl
@[simp] theorem State.storeEdge_passEndTime (now : Word) : (s.storeEdge now).passEndTime = s.passEndTime := rfl
@[simp] theorem State.storeEdge_passDone (now : Word) : (s.storeEdge now).passDone = s.passDone := rfl
@[simp] theorem State.storeEdge_hasupd (now : Word) : (s.storeEdge now).hasupd = s.hasupd := rfl
@[simp] theorem State.storeEdge_inbox (now : Word) : (s.storeEdge now).inbox = s.inbox := rfl
@[simp] theorem State.storeEdge_responses (now : Word) : (s.storeEdge now).responses = s.responses := rfl
@[simp] theorem State.storeEdge_toggles (now : Word) : (s.storeEdge now).toggles = s.toggles := rfl

/-! ### countEdge -/

@[simp] theorem State.countEdge_cfg : (s.countEdge).cfg = s.cfg := rfl
@[simp] theorem State.countEdge_ring : (s.countEdge).ring = s.ring := rfl
@[simp] theorem State.countEdge_wrIdx : (s.countEdge).wrIdx = s.wrIdx := rfl
@[simp] theorem State.countEdge_lastEdgeTime : (s.countEdge).lastEdgeTime = s.lastEdgeTime := rfl
@[simp] theorem State.countEdge_rxState : (s.countEdge).rxState = s.rxState := rfl
@[simp] theorem State.countEdge_preambleIdx : (s.countEdge).preambleIdx = s.preambleIdx := rfl
@[simp] theorem State.countEdge_edgeCount : (s.countEdge).edgeCount = s.edgeCount + 1 := rfl
@[simp] theorem State.countEdge_repeatEdgeCount :
    (s.countEdge).repeatEdgeCount = if s.syncMatch then s.repeatEdgeCount + 1 else s.repeatEdgeCount := rfl
@[simp] theorem State.countEdge_received :
    (s.countEdge).received = if s.cfg.threshold < (s.edgeCount + 1).toNat then true else s.received := rfl
@[simp] theorem State.countEdge_listening :
    (s.countEdge).listening = if s.cfg.threshold < (s.edgeCount + 1).toNat then false else s.listening := rfl
@[simp] theorem State.countEdge_msgBuf : (s.countEdge).msgBuf = s.msgBuf := rfl
@[simp] theorem State.countEdge_txTable : (s.countEdge).txTable = s.txTable := rfl
@[simp] theorem State.countEdge_txIdx : (s.countEdge).txIdx = s.txIdx := rfl
@[simp] theorem State.countEdge_txActive : (s.countEdge).txActive = s.txActive := rfl
@[simp] theorem State.countEdge_txCompare : (s.countEdge).txCompare = s.txCompare := rfl
@[simp] theorem State.countEdge_txPin : (s.countEdge).txPin = s.txPin := rfl
@[simp] theorem State.countEdge_hostBlocked : (s.countEdge).hostBlocked = s.hostBlocked := rfl
@[simp] theorem State.countEdge_cm : (s.countEdge).cm = s.cm := rfl
@[simp] theorem State.countEdge_validSample : (s.countEdge).validSample = s.validSample := rfl
@[simp] theorem State.countEdge_seqNo : (s.countEdge).seqNo = s.seqNo := rfl
@[simp] theorem State.countEdge_lastSampleTime : (s.countEdge).lastSampleTime = s.lastSampleTime := rfl
@[simp] theorem State.countEdge_dRaw : (s.countEdge).dRaw = s.dRaw := rfl
@[simp] theorem State.countEdge_dShadow : (s.countEdge).dShadow = s.dShadow := rfl
@[simp] theorem State.countEdge_dByte : (s.countEdge).dByte = s.dByte := rfl
@[simp] theorem State.countEdge_dBitPos : (s.countEdge).dBitPos = s.dBitPos := rfl
@[simp] theorem State.countEdge_dBytePos : (s.countEdge).dBytePos = s.dBytePos := rfl
@[simp] theorem State.countEdge_dReady : (s.countEdge).dReady = s.dReady := rfl
@[simp] theorem State.countEdge_dListening : (s.countEdge).dListening = s.dListening := rfl
@[simp] theorem State.countEdge_scanState : (s.countEdge).scanState = s.scanState := rfl
@[simp] theorem State.countEdge_scanRemaining : (s.countEdge).scanRemaining = s.scanRemaining := rfl
@[simp] theorem State.countEdge_scanIndex : (s.countEdge).scanIndex = s.scanIndex := rfl
@[simp] theorem State.countEdge_labelSeenAt : (s.countEdge).labelSeenAt = s.labelSeenAt := rfl
@[simp] theorem State.countEdge_props : (s.countEdge).props = s.props := rfl
@[simp] theorem State.countEdge_passEndTime : (s.countEdge).passEndTime = s.passEndTime := rfl
@[simp] theorem State.countEdge_passDone : (s.countEdge).passDone = s.passDone := rfl
@[simp] theorem State.countEdge_hasupd : (s.countEdge).hasupd = s.hasupd := rfl
@[simp] theorem State.countEdge_inbox : (s.countEdge).inbox = s.inbox := rfl
@[simp] theorem State.countEdge_responses : (s.countEdge).responses = s.responses := rfl
@[simp] theorem State.countEdge_toggles : (s.countEdge).toggles = s.toggles := rfl

/-! ### drain -/

@[simp] theorem State.drain_cfg (buf : List Byte) : (s.drain buf).cfg = s.cfg := rfl
@[simp] theorem State.drain_ring (buf : List Byte) : (s.drain buf).ring = s.ring := rfl
@[simp] theorem State.drain_wrIdx (buf : List Byte) : (s.drain buf).wrIdx = s.wrIdx := rfl
@[simp] theorem State.drain_lastEdgeTime (buf : List Byte) : (s.drain buf).lastEdgeTime = s.lastEdgeTime := rfl
@[simp] theorem State.drain_rxState (buf : List Byte) : (s.drain buf).rxState = .preamble := rfl
@[simp] theorem State.drain_preambleIdx (buf : List Byte) : (s.drain buf).preambleIdx = s.preambleIdx := rfl
@[simp] theorem State.drain_edgeCount (buf : List Byte) : (s.drain buf).edgeCount = 0 := rfl
@[simp] theorem State.drain_repeatEdgeCount (buf : List Byte) : (s.drain buf).repeatEdgeCount = 0 := rfl
@[simp] theorem State.drain_received (buf : List Byte) : (s.drain buf).received = false := rfl
@[simp] theorem State.drain_listening (buf : List Byte) : (s.drain buf).listening = s.listening := rfl
@[simp] theorem State.drain_msgBuf (buf : List Byte) : (s.drain buf).msgBuf = buf := rfl
@[simp] theorem State.drain_txTable (buf : List Byte) : (s.drain buf).txTable = s.txTable := rfl
@[simp] theorem State.drain_txIdx (buf : List Byte) : (s.drain buf).txIdx = s.txIdx := rfl
@[simp] theorem State.drain_txActive (buf : List Byte) : (s.drain buf).txActive = s.txActive := rfl
@[simp] theorem State.drain_txCompare (buf : List Byte) : (s.drain buf).txCompare = s.txCompare := rfl
@[simp] theorem State.drain_txPin (buf : List Byte) : (s.drain buf).txPin = s.txPin := rfl
@[simp] theorem State.drain_hostBlocked (buf : List Byte) : (s.drain buf).hostBlocked = s.hostBlocked := rfl
@[simp] theorem State.drain_cm (buf : List Byte) : (s.drain buf).cm = s.cm := rfl
@[simp] theorem State.drain_validSample (buf : List Byte) : (s.drain buf).validSample = s.validSample := rfl
@[simp] theorem State.drain_seqNo (buf : List Byte) : (s.drain buf).seqNo = s.seqNo := rfl
@[simp] theorem State.drain_lastSampleTime (buf : List Byte) : (s.drain buf).lastSampleTime = s.lastSampleTime := rfl
@[simp] theorem State.drain_dRaw (buf : List Byte) : (s.drain buf).dRaw = s.dRaw := rfl
@[simp] theorem State.drain_dShadow (buf : List Byte) : (s.drain buf).dShadow = s.dShadow := rfl
@[simp] theorem State.drain_dByte (buf : List Byte) : (s.drain buf).dByte = s.dByte := rfl
@[simp] theorem State.drain_dBitPos (buf : List Byte) : (s.drain buf).dBitPos = s.dBitPos := rfl
@[simp] theorem State.drain_dBytePos (buf : List Byte) : (s.drain buf).dBytePos = s.dBytePos := rfl
@[simp] theorem State.drain_dReady (buf : List Byte) : (s.drain buf).dReady = s.dReady := rfl
@[simp] theorem State.drain_dListening (buf : List Byte) : (s.drain buf).dListening = s.dListening := rfl
@[simp] theorem State.drain_scanState (buf : List Byte) : (s.drain buf).scanState = s.scanState := rfl
@[simp] theorem State.drain_scanRemaining (buf : List Byte) : (s.drain buf).scanRemaining = s.scanRemaining := rfl
@[simp] theorem State.drain_scanIndex (buf : List Byte) : (s.drain buf).scanIndex = s.scanIndex := rfl
@[simp] theorem State.drain_labelSeenAt (buf : List Byte) : (s.drain buf).labelSeenAt = s.labelSeenAt := rfl
@[simp] theorem State.drain_props (buf : List Byte) : (s.drain buf).props = s.props := rfl
@[simp] theorem State.drain_passEndTime (buf : List Byte) : (s.drain buf).passEndTime = s.passEndTime := rfl
@[simp] theorem State.drain_passDone (buf : List Byte) : (s.drain buf).passDone = s.passDone := rfl
@[simp] theorem State.drain_hasupd (buf : List Byte) : (s.drain buf).hasupd = s.hasupd := rfl
@[simp] theorem State.drain_inbox (buf : List Byte) : (s.drain buf).inbox = s.inbox := rfl
@[simp] theorem State.drain_responses (buf : List Byte) : (s.drain buf).responses = s.responses := rfl
@[simp] theorem State.drain_toggles (buf : List Byte) : (s.drain buf).toggles = s.toggles := rfl

/-! ### setField -/

@[simp] theorem State.setField_cfg (f : FieldMap → Field) (v : Nat) : (s.setField f v).cfg = s.cfg := rfl
@[simp] theorem State.setField_ring (f : FieldMap → Field) (v : Nat) : (s.setField f v).ring = s.ring := rfl
@[simp] theorem State.setField_wrIdx (f : FieldMap → Field) (v : Nat) : (s.setField f v).wrIdx = s.wrIdx := rfl
@[simp] theorem State.setField_lastEdgeTime (f : FieldMap → Field) (v : Nat) :
    (s.setField f v).lastEdgeTime = s.lastEdgeTime := rfl
@[simp] theorem State.setField_rxState (f : FieldMap → Field) (v : Nat) : (s.setField f v).rxState = s.rxState := rfl
@[simp] theorem State.setField_preambleIdx (f : FieldMap → Field) (v : Nat) :
    (s.setField f v).preambleIdx = s.preambleIdx := rfl
@[simp] theorem State.setField_edgeCount (f : FieldMap → Field) (v : Nat) :
    (s.setField f v).edgeCount = s.edgeCount := rfl
@[simp] theorem State.setField_repeatEdgeCount (f : FieldMap → Field) (v : Nat) :
    (s.setField f v).repeatEdgeCount = s.repeatEdgeCount := rfl
@[simp] theorem State.setField_received (f : FieldMap → Field) (v : Nat) : (s.setField f v).received = s.received := rfl
@[simp] theorem State.setField_listening (f : FieldMap → Field) (v : Nat) :
    (s.setField f v).listening = s.listening := rfl
@[simp] theorem State.setField_msgBuf (f : FieldMap → Field) (v : Nat) : (s.setField f v).msgBuf = s.msgBuf := rfl
@[simp] theorem State.setField_txTable (f : FieldMap → Field) (v : Nat) : (s.setField f v).txTable = s.txTable := rfl
@[simp] theorem State.setField_txIdx (f : FieldMap → Field) (v : Nat) : (s.setField f v).txIdx = s.txIdx := rfl
@[simp] theorem State.setField_txActive (f : FieldMap → Field) (v : Nat) : (s.setField f v).txActive = s.txActive := rfl
@[simp] theorem State.setField_txCompare (f : FieldMap → Field) (v : Nat) :
    (s.setField f v).txCompare = s.txCompare := rfl
@[simp] theorem State.setField_txPin (f : FieldMap → Field) (v : Nat) : (s.setField f v).txPin = s.txPin := rfl
@[simp] theorem State.setField_hostBlocked (f : FieldMap → Field) (v : Nat) :
    (s.setField f v).hostBlocked = s.hostBlocked := rfl
@[simp] theorem State.setField_cm (f : FieldMap → Field) (v : Nat) :
    (s.setField f v).cm = putField s.cm (f s.cfg.fieldMap) v := rfl
@[simp] theorem State.setField_validSample (f : FieldMap → Field) (v : Nat) :
    (s.setField f v).validSample = s.validSample := rfl
@[simp] theorem State.setField_seqNo (f : FieldMap → Field) (v : Nat) : (s.setField f v).seqNo = s.seqNo := rfl
@[simp] theorem State.setField_lastSampleTime (f : FieldMap → Field) (v : Nat) :
    (s.setField f v).lastSampleTime = s.lastSampleTime := rfl
@[simp] theorem State.setField_dRaw (f : FieldMap → Field) (v : Nat) : (s.setField f v).dRaw = s.dRaw := rfl
@[simp] theorem State.setField_dShadow (f : FieldMap → Field) (v : Nat) : (s.setField f v).dShadow = s.dShadow := rfl
@[simp] theorem State.setField_dByte (f : FieldMap → Field) (v : Nat) : (s.setField f v).dByte = s.dByte := rfl
@[simp] theorem State.setField_dBitPos (f : FieldMap → Field) (v : Nat) : (s.setField f v).dBitPos = s.dBitPos := rfl
@[simp] theorem State.setField_dBytePos (f : FieldMap → Field) (v : Nat) : (s.setField f v).dBytePos = s.dBytePos := rfl
@[simp] theorem State.setField_dReady (f : FieldMap → Field) (v : Nat) : (s.setField f v).dReady = s.dReady := rfl
@[simp] theorem State.setField_dListening (f : FieldMap → Field) (v : Nat) :
    (s.setField f v).dListening = s.dListening := rfl
@[simp] theorem State.setField_scanState (f : FieldMap → Field) (v : Nat) :
    (s.setField f v).scanState = s.scanState := rfl
@[simp] theorem State.setField_scanRemaining (f : FieldMap → Field) (v : Nat) :
    (s.setField f v).scanRemaining = s.scanRemaining := rfl
@[simp] theorem State.setField_scanIndex (f : FieldMap → Field) (v : Nat) :
    (s.setField f v).scanIndex = s.scanIndex := rfl
@[simp] theorem State.setField_labelSeenAt (f : FieldMap → Field) (v : Nat) :
    (s.setField f v).labelSeenAt = s.labelSeenAt := rfl
@[simp] theorem State.setField_props (f : FieldMap → Field) (v : Nat) : (s.setField f v).props = s.props := rfl
@[simp] theorem State.setField_passEndTime (f : FieldMap → Field) (v : Nat) :
    (s.setField f v).passEndTime = s.passEndTime := rfl
@[simp] theorem State.setField_passDone (f : FieldMap → Field) (v : Nat) : (s.setField f v).passDone = s.passDone := rfl
@[simp] theorem State.setField_hasupd (f : FieldMap → Field) (v : Nat) : (s.setField f v).hasupd = s.hasupd := rfl
@[simp] theorem State.setField_inbox (f : FieldMap → Field) (v : Nat) : (s.setField f v).inbox = s.inbox := rfl
@[simp] theorem State.setField_responses (f : FieldMap → Field) (v : Nat) :
    (s.setField f v).responses = s.responses := rfl
@[simp] theorem State.setField_toggles (f : FieldMap → Field) (v : Nat) : (s.setField f v).toggles = s.toggles := rfl

/-! ### adopt -/

@[simp] theorem State.adopt_cfg (p : List Byte) (sample : Nat) (now : Word) : (s.adopt p sample now).cfg = s.cfg := rfl
@[simp] theorem State.adopt_ring (p : List Byte) (sample : Nat) (now : Word) :
    (s.adopt p sample now).ring = s.ring := rfl
@[simp] theorem State.adopt_wrIdx (p : List Byte) (sample : Nat) (now : Word) :
    (s.adopt p sample now).wrIdx = s.wrIdx := rfl
@[simp] theorem State.adopt_lastEdgeTime (p : List Byte) (sample : Nat) (now : Word) :
    (s.adopt p sample now).lastEdgeTime = s.lastEdgeTime := rfl
@[simp] theorem State.adopt_rxState (p : List Byte) (sample : Nat) (now : Word) :
    (s.adopt p sample now).rxState = s.rxState := rfl
@[simp] theorem State.adopt_preambleIdx (p : List Byte) (sample : Nat) (now : Word) :
    (s.adopt p sample now).preambleIdx = s.preambleIdx := rfl
@[simp] theorem State.adopt_edgeCount (p : List Byte) (sample : Nat) (now : Word) :
    (s.adopt p sample now).edgeCount = s.edgeCount := rfl
@[simp] theorem State.adopt_repeatEdgeCount (p : List Byte) (sample : Nat) (now : Word) :
    (s.adopt p sample now).repeatEdgeCount = s.repeatEdgeCount := rfl
@[simp] theorem State.adopt_received (p : List Byte) (sample : Nat) (now : Word) :
    (s.adopt p sample now).received = s.received := rfl
@[simp] theorem State.adopt_listening (p : List Byte) (sample : Nat) (now : Word) :
    (s.adopt p sample now).listening = s.listening := rfl
@[simp] theorem State.adopt_msgBuf (p : List Byte) (sample : Nat) (now : Word) :
    (s.adopt p sample now).msgBuf = s.msgBuf := rfl
@[simp] theorem State.adopt_txTable (p : List Byte) (sample : Nat) (now : Word) :
    (s.adopt p sample now).txTable = s.txTable := rfl
@[simp] theorem State.adopt_txIdx (p : List Byte) (sample : Nat) (now : Word) :
    (s.adopt p sample now).txIdx = s.txIdx := rfl
@[simp] theorem State.adopt_txActive (p : List Byte) (sample : Nat) (now : Word) :
    (s.adopt p sample now).txActive = s.txActive := rfl
@[simp] theorem State.adopt_txCompare (p : List Byte) (sample : Nat) (now : Word) :
    (s.adopt p sample now).txCompare = s.txCompare := rfl
@[simp] theorem State.adopt_txPin (p : List Byte) (sample : Nat) (now : Word) :
    (s.adopt p sample now).txPin = s.txPin := rfl
@[simp] theorem State.adopt_hostBlocked (p : List Byte) (sample : Nat) (now : Word) :
    (s.adopt p sample now).hostBlocked = s.hostBlocked := rfl
@[simp] theorem State.adopt_cm (p : List Byte) (sample : Nat) (now : Word) :
    (s.adopt p sample now).cm = build s.cfg p := rfl
@[simp] theorem State.adopt_validSample (p : List Byte) (sample : Nat) (now : Word) :
    (s.adopt p sample now).validSample = (sample == 1) := rfl
@[simp] theorem State.adopt_seqNo (p : List Byte) (sample : Nat) (now : Word) :
    (s.adopt p sample now).seqNo = s.seqNo + 1 := rfl
@[simp] theorem State.adopt_lastSampleTime (p : List Byte) (sample : Nat) (now : Word) :
    (s.adopt p sample now).lastSampleTime = now := rfl
@[simp] theorem State.adopt_dRaw (p : List Byte) (sample : Nat) (now : Word) :
    (s.adopt p sample now).dRaw = s.dRaw := rfl
@[simp] theorem State.adopt_dShadow (p : List Byte) (sample : Nat) (now : Word) :
    (s.adopt p sample now).dShadow = s.dShadow := rfl
@[simp] theorem State.adopt_dByte (p : List Byte) (sample : Nat) (now : Word) :
    (s.adopt p sample now).dByte = s.dByte := rfl
@[simp] theorem State.adopt_dBitPos (p : List Byte) (sample : Nat) (now : Word) :
    (s.adopt p sample now).dBitPos = s.dBitPos := rfl
@[simp] theorem State.adopt_dBytePos (p : List Byte) (sample : Nat) (now : Word) :
    (s.adopt p sample now).dBytePos = s.dBytePos := rfl
@[simp] theorem State.adopt_dReady (p : List Byte) (sample : Nat) (now : Word) :
    (s.adopt p sample now).dReady = s.dReady := rfl
@[simp] theorem State.adopt_dListening (p : List Byte) (sample : Nat) (now : Word) :
    (s.adopt p sample now).dListening = s.dListening := rfl
@[simp] theorem State.adopt_scanState (p : List Byte) (sample : Nat) (now : Word) :
    (s.adopt p sample now).scanState = s.scanState := rfl
@[simp] theorem State.adopt_scanRemaining (p : List Byte) (sample : Nat) (now : Word) :
    (s.adopt p sample now).scanRemaining = s.scanRemaining := rfl
@[simp] theorem State.adopt_scanIndex (p : List Byte) (sample : Nat) (now : Word) :
    (s.adopt p sample now).scanIndex = s.scanIndex := rfl
@[simp] theorem State.adopt_labelSeenAt (p : List Byte) (sample : Nat) (now : Word) :
    (s.adopt p sample now).labelSeenAt = s.labelSeenAt := rfl
@[simp] theorem State.adopt_props (p : List Byte) (sample : Nat) (now : Word) :
    (s.adopt p sample now).props = s.props := rfl
@[simp] theorem State.adopt_passEndTime (p : List Byte) (sample : Nat) (now : Word) :
    (s.adopt p sample now).passEndTime = s.passEndTime := rfl
@[simp] theorem State.adopt_passDone (p : List Byte) (sample : Nat) (now : Word) :
    (s.adopt p sample now).passDone = s.passDone := rfl
@[simp] theorem State.adopt_hasupd (p : List Byte) (sample : Nat) (now : Word) :
    (s.adopt p sample now).hasupd = s.hasupd := rfl
@[simp] theorem State.adopt_inbox (p : List Byte) (sample : Nat) (now : Word) :
    (s.adopt p sample now).inbox = s.inbox := rfl
@[simp] theorem State.adopt_responses (p : List Byte) (sample : Nat) (now : Word) :
    (s.adopt p sample now).responses = s.responses := rfl
@[simp] theorem State.adopt_toggles (p : List Byte) (sample : Nat) (now : Word) :
    (s.adopt p sample now).toggles = s.toggles := rfl

/-! ### enterPass -/

@[simp] theorem State.enterPass_cfg : (s.enterPass).cfg = s.cfg := rfl
@[simp] theorem State.enterPass_ring : (s.enterPass).ring = s.ring := rfl
@[simp] theorem State.enterPass_wrIdx : (s.enterPass).wrIdx = s.wrIdx := rfl
@[simp] theorem State.enterPass_lastEdgeTime : (s.enterPass).lastEdgeTime = s.lastEdgeTime := rfl
@[simp] theorem State.enterPass_rxState : (s.enterPass).rxState = s.rxState := rfl
@[simp] theorem State.enterPass_preambleIdx : (s.enterPass).preambleIdx = s.preambleIdx := rfl
@[simp] theorem State.enterPass_edgeCount : (s.enterPass).edgeCount = s.edgeCount := rfl
@[simp] theorem State.enterPass_repeatEdgeCount : (s.enterPass).repeatEdgeCount = s.repeatEdgeCount := rfl
@[simp] theorem State.enterPass_received : (s.enterPass).received = s.received := rfl
@[simp] theorem State.enterPass_listening : (s.enterPass).listening = s.listening := rfl
@[simp] theorem State.enterPass_msgBuf : (s.enterPass).msgBuf = s.msgBuf := rfl
@[simp] theorem State.enterPass_txTable : (s.enterPass).txTable = s.txTable := rfl
@[simp] theorem State.enterPass_txIdx : (s.enterPass).txIdx = s.txIdx := rfl
@[simp] theorem State.enterPass_txActive : (s.enterPass).txActive = s.txActive := rfl
@[simp] theorem State.enterPass_txCompare : (s.enterPass).txCompare = s.txCompare := rfl
@[simp] theorem State.enterPass_txPin : (s.enterPass).txPin = s.txPin := rfl
@[simp] theorem State.enterPass_hostBlocked : (s.enterPass).hostBlocked = s.hostBlocked := rfl
@[simp] theorem State.enterPass_cm : (s.enterPass).cm = s.cm := rfl
@[simp] theorem State.enterPass_validSample : (s.enterPass).validSample = s.validSample := rfl
@[simp] theorem State.enterPass_seqNo : (s.enterPass).seqNo = s.seqNo := rfl
@[simp] theorem State.enterPass_lastSampleTime : (s.enterPass).lastSampleTime = s.lastSampleTime := rfl
@[simp] theorem State.enterPass_dRaw : (s.enterPass).dRaw = s.dRaw := rfl
@[simp] theorem State.enterPass_dShadow : (s.enterPass).dShadow = s.dShadow := rfl
@[simp] theorem State.enterPass_dByte : (s.enterPass).dByte = s.dByte := rfl
@[simp] theorem State.enterPass_dBitPos : (s.enterPass).dBitPos = s.dBitPos := rfl
@[simp] theorem State.enterPass_dBytePos : (s.enterPass).dBytePos = s.dBytePos := rfl
@[simp] theorem State.enterPass_dReady : (s.enterPass).dReady = s.dReady := rfl
@[simp] theorem State.enterPass_dListening : (s.enterPass).dListening = s.dListening := rfl
@[simp] theorem State.enterPass_scanState :
    (s.enterPass).scanState = if 0 < s.cfg.queueLen then .stepping else .awaitingLabel := rfl
@[simp] theorem State.enterPass_scanRemaining : (s.enterPass).scanRemaining = s.cfg.queueLen := rfl
@[simp] theorem State.enterPass_scanIndex : (s.enterPass).scanIndex = 0 := rfl
@[simp] theorem State.enterPass_labelSeenAt : (s.enterPass).labelSeenAt = s.labelSeenAt := rfl
@[simp] theorem State.enterPass_props : (s.enterPass).props = List.replicate 27 0 := rfl
@[simp] theorem State.enterPass_passEndTime : (s.enterPass).passEndTime = s.passEndTime := rfl
@[simp] theorem State.enterPass_passDone : (s.enterPass).passDone = s.passDone := rfl
@[simp] theorem State.enterPass_hasupd : (s.enterPass).hasupd = s.hasupd := rfl
@[simp] theorem State.enterPass_inbox : (s.enterPass).inbox = s.inbox := rfl
@[simp] theorem State.enterPass_responses : (s.enterPass).responses = s.responses := rfl
@[simp] theorem State.enterPass_toggles : (s.enterPass).toggles = s.toggles := rfl

end Sys2Proof.Machine
end

