-- ==== Sys2Proof/Laws/Ops.lean ====
section
/-! SUPPORT. One lemma per shared operation that says all it can do. -/

namespace Sys2Proof.Machine

/-! ### Completing an operation -/

@[simp] theorem complete_eq (s : State) (r : Result) : s.complete r = .next (s.respond .ok r) := rfl

@[simp] theorem fail_eq (s : State) (st : Status) (r : Result) : s.fail st r = .next (s.respond st r) := rfl

@[simp] theorem illegalOp_eq (s : State) : illegalOp s = .next (s.respond .illegalOp .empty) := rfl

theorem heatPumpOnly_of_heatPump {s : State} (h : s.cfg.variant = .heatPump) (k : Out) : s.heatPumpOnly k = k := by
  simp [State.heatPumpOnly, h]

theorem heatPumpOnly_of_generic {s : State} (h : s.cfg.variant = .generic) (k : Out) :
    s.heatPumpOnly k = .next (s.respond .illegalOp .empty) := by
  simp [State.heatPumpOnly, h]

/-- A codec or scanner operation is what it is under the heat-pump variant, or the ILLEGAL_OP answer. -/
theorem heatPumpOnly_cases (s : State) (k : Out) :
    s.heatPumpOnly k = k ∨ s.heatPumpOnly k = .next (s.respond .illegalOp .empty) := by
  cases h : s.cfg.variant
  · exact .inr (heatPumpOnly_of_generic h k)
  · exact .inl (heatPumpOnly_of_heatPump h k)

/-- A getter answers, with one of three statuses, and changes nothing else. -/
theorem getter_next {α : Type} (s : State) (ks : List Kind) (f : FieldMap → Field) (value : Nat → Option α)
    (result : α → Result) :
    ∃ st r, st ∈ [Status.ok, .invalidField, .illegalOp] ∧ s.getter ks f value result = .next (s.respond st r) := by
  unfold State.getter
  rcases heatPumpOnly_cases s _ with h | h <;> rw [h]
  · split
    · split
      · exact ⟨.ok, _, by simp, rfl⟩
      · exact ⟨.invalidField, _, by simp, rfl⟩
    · exact ⟨.invalidField, _, by simp, rfl⟩
  · exact ⟨.illegalOp, _, by simp, rfl⟩

/-- A setter performs its write, under the heat-pump variant and for a kind that has the field, or only answers, with one
of two statuses. -/
theorem setter_next (s : State) (ks : List Kind) (write : Option State) :
    (∃ s', write = some s' ∧ s.cfg.variant = .heatPump ∧ s.hasKind ks = true ∧
      s.setter ks write = .next (s'.respond .ok .empty)) ∨
    (∃ st ∈ [Status.invalidField, .illegalOp], s.setter ks write = .next (s.respond st .empty)) := by
  unfold State.setter
  cases hv : s.cfg.variant
  · rw [heatPumpOnly_of_generic hv]; exact .inr ⟨.illegalOp, by simp, rfl⟩
  · rw [heatPumpOnly_of_heatPump hv]
    split
    · next hk =>
      split
      · exact .inl ⟨_, rfl, rfl, hk, rfl⟩
      · exact .inr ⟨.invalidField, by simp, rfl⟩
    · exact .inr ⟨.invalidField, by simp, rfl⟩

/-! ### Instruction kinds -/

/-- The membership test of R80 and R100 asks for the code of one of the kinds. -/
theorem isOfKind_iff (c : Configuration) (p : List Byte) (ks : List Kind) :
    isOfKind c p ks = true ↔ ∃ k ∈ ks, kindCode c p = kindValue c k := by
  simp [isOfKind]

/-- A payload has a kind exactly when its code is that of one of the three. -/
theorem kindOf_isSome (c : Configuration) (p : List Byte) :
    (kindOf c p).isSome = true ↔ kindCode c p ∈ [c.kindCommand, c.kindOption, c.kindFollowMe] := by
  unfold kindOf
  split
  · simp [*]
  · split
    · simp [*]
    · split <;> simp [*]

/-! ### The transmitter and the receiver -/

@[simp] theorem length_pulseTable (c : Configuration) (m : List Byte) : (pulseTable c m).length = c.tableLen := by
  simp [pulseTable]

/-- The end of a transmission answers the host that waits for it. -/
theorem releaseHost_cases (s : State) :
    (s.hostBlocked = true ∧ s.releaseHost = { s with hostBlocked := false, responses := s.responses ++ [⟨.ok, .empty⟩] }) ∨
    (s.hostBlocked = false ∧ s.releaseHost = s) := by
  cases h : s.hostBlocked <;> simp [State.releaseHost, h, State.respond]

/-- The sync search finds the sync and enters state Message, or does nothing. -/
theorem searchSync_cases (s : State) :
    (s.syncMatch = true ∧ s.searchSync = { s with
      preambleIdx := (s.wrIdx + s.cfg.ringCap - s.cfg.syncCount) % s.cfg.ringCap
      rxState := .message
      edgeCount := BitVec.ofNat 32 s.cfg.syncCount }) ∨
    (s.syncMatch = false ∧ s.searchSync = s) := by
  cases h : s.syncMatch <;> simp [State.searchSync, h]

@[simp] theorem length_edgeTimes (c : Configuration) (m : List Byte) (now : Word) (j n : Nat) :
    (edgeTimes c m now j n).length = n := by
  induction n generalizing now j with
  | zero => rfl
  | succ n ih => simp [edgeTimes, ih]

/-- What a pair does to the buffer keeps its length. -/
theorem pairStep_go_length {c : Configuration} {d : Word} {bit bit' : Nat} {buf buf' : List Byte}
    (hl : buf.length = c.msgLen) (h : pairStep c d bit buf = .go bit' buf') : buf'.length = c.msgLen := by
  unfold pairStep at h
  split at h
  · cases h; exact hl
  · split at h
    · cases h; simpa using hl
    · split at h
      · cases h
      · split at h
        · cases h
        · cases h; simp [zeroBuffer]

/-- The walk keeps the buffer's length. -/
theorem walk_length {c : Configuration} (ds : List Word) (bit : Nat) (buf : List Byte) (hl : buf.length = c.msgLen) :
    (walk c ds bit buf).2.length = c.msgLen := by
  induction ds generalizing bit buf with
  | nil => exact hl
  | cons d ds ih =>
    unfold walk
    split
    · exact hl
    · next bit' buf' h =>
      have := pairStep_go_length hl h
      split
      · exact this
      · exact ih _ _ this

/-- `Emit` starts the transmission of an option message on a free transmitter. -/
theorem emitOption_eq_some {s t : State} {o : Byte} (h : s.emitOption o = some t) :
    s.txActive = false ∧ ∃ m, optionMessage s.cfg o = some m ∧ t = s.startTransmission m := by
  unfold State.emitOption at h
  split at h
  · cases h
  · next ha =>
    cases hm : optionMessage s.cfg o with
    | none => rw [hm] at h; cases h
    | some m =>
      rw [hm] at h
      cases h
      exact ⟨by simpa using ha, m, rfl, rfl⟩

/-! ### Messages -/

@[simp] theorem length_complement (p : List Byte) : (complement p).length = p.length := by simp [complement]

@[simp] theorem complement_complement (p : List Byte) : complement (complement p) = p := by
  simp [complement, Function.comp_def]

@[simp] theorem length_build (c : Configuration) (p : List Byte) : (build c p).length = 2 * (p.length + 1) := by
  simp [build]; omega

/-- The payload of sample 0 of a built message is what it was built from. -/
theorem pay_build_zero {c : Configuration} {p : List Byte} (hp : p.length = c.payloadBytes) :
    pay c (build c p) 0 = p := by
  simp [pay, build, ← hp]

theorem cs_build_zero {c : Configuration} {p : List Byte} (hp : p.length = c.payloadBytes) :
    cs c (build c p) 0 = checksum c p := by
  simp [cs, build, ← hp]

theorem pay_build_one {c : Configuration} {p : List Byte} (hp : p.length = c.payloadBytes) :
    pay c (build c p) 1 = complement p := by
  have e : build c p = (p ++ [checksum c p]) ++ (complement p ++ [checksum c (complement p)]) := by simp [build]
  have hl : (p ++ [checksum c p]).length = 1 * (c.payloadBytes + 1) := by simp [hp]
  unfold pay
  rw [e, ← hl, List.drop_left, ← hp, ← length_complement, List.take_left]

theorem cs_build_one {c : Configuration} {p : List Byte} (hp : p.length = c.payloadBytes) :
    cs c (build c p) 1 = checksum c (complement p) := by
  have e : build c p = (p ++ [checksum c p] ++ complement p) ++ [checksum c (complement p)] := by simp [build]
  have hl : (p ++ [checksum c p] ++ complement p).length = 1 * (c.payloadBytes + 1) + c.payloadBytes := by
    simp [hp]; omega
  unfold cs
  rw [e, ← hl]
  simp [List.getD_eq_getElem?_getD]

/-- Both samples of a message built from a payload with the marker pass the check. -/
theorem check_build {c : Configuration} {p : List Byte} (hp : p.length = c.payloadBytes)
    (hm : p.headD 0 &&& c.markerMask = c.markerValue) :
    check c (build c p) 0 = .good ∧ check c (build c p) 1 = .good := by
  constructor
  · simp only [check, plainPayload, if_true, pay_build_zero hp, cs_build_zero hp, hm]; simp
  · simp only [check, plainPayload, pay_build_one hp, cs_build_one hp, complement_complement]
    simpa using hm

end Sys2Proof.Machine
end

