-- ==== Sys2Proof/Laws/Effect.lean ====
section
/-! SUPPORT. Everything an operation or event can do to the state, said once: an invariant or a frame follows by
induction on Effect, without unfolding a meaning. -/

namespace Sys2Proof.Machine

/-- `Effect s i t`: `t` is among the states that `i` can make of `s`. Responses and field writes may be added to any of
them. -/
inductive Effect (s : State) (i : Instr) : State → Prop
  /-- Nothing changes. -/
  | stay : Effect s i s
  /-- A response goes out. -/
  | respond {u : State} (st : Status) (r : Result) : Effect s i u → Effect s i (u.respond st r)
  /-- RESET with a well-formed record. -/
  | construct (c : Configuration) : i = .reset c → wellFormedConfig c = true →
    Effect s i { State.construct c with inbox := s.inbox, responses := s.responses, toggles := s.toggles }
  /-- SEND on a free transmitter. -/
  | transmit (m : List Byte) : i = .send m → s.txActive = false → Effect s i (s.startTransmission m)
  /-- SEND.W on a free transmitter. -/
  | transmitWaiting (m : List Byte) : i = .sendW m → s.txActive = false →
    Effect s i { s.startTransmission m with hostBlocked := true }
  /-- LISTEN. -/
  | attach : i = .listen → Effect s i { s with
      ring            := List.replicate s.cfg.ringCap 0
      wrIdx           := 0
      msgBuf          := zeroBuffer s.cfg
      received        := false
      rxState         := .preamble
      preambleIdx     := 0
      edgeCount       := 0
      repeatEdgeCount := 0
      listening       := true : State }
  /-- LISTENSTOP. -/
  | detach : i = .listenstop → Effect s i { s with listening := false }
  /-- CHKMSG with a message pending. -/
  | drain (buf : List Byte) : i = .chkmsg → s.received = true → buf.length = s.cfg.msgLen →
    Effect s i (s.drain buf)
  /-- ISVALID or ISVALID.S of a buffer with a valid sample. -/
  | adopt (b : List Byte) (now : Word) (v : Nat) (x : List Byte) :
    (i = .isvalid b now ∧ x = b ∨ i = .isvalidS b now ∧ x = stamp s.cfg b) → s.cfg.variant = .heatPump →
    chooseSample s.cfg x = some v → Effect s i (s.adopt (plainPayload s.cfg x v) v now)
  /-- GETMSG. -/
  | normalise : i = .getmsg → s.cfg.variant = .heatPump →
    Effect s i { s with cm := build s.cfg (pay s.cfg s.cm 0) }
  /-- A field write of a setter. -/
  | field (f : Field) (v : Nat) : writesMessage i = true → s.cfg.variant = .heatPump →
    f ∈ commandFields s.cfg.fieldMap ++
      [s.cfg.fieldMap.status, s.cfg.fieldMap.time, s.cfg.fieldMap.option, s.cfg.fieldMap.fmState,
        s.cfg.fieldMap.fmTemp] →
    ∀ u : State, Effect s i u → u.cfg = s.cfg → Effect s i { u with cm := putField u.cm f v }
  /-- DLISTEN. -/
  | attachDisplay : i = .dlisten →
    Effect s i { s with dBitPos := 0, dBytePos := 0, dByte := 0, dReady := false, dListening := true : State }
  /-- DLISTENSTOP. -/
  | detachDisplay : i = .dlistenstop → Effect s i { s with dListening := false }
  /-- HASUPD in one step, the frame adopted. -/
  | shadow : i = .hasupd → ∀ raw : Frame,
    Effect s i { s with dReady := false, hasupd := .idle, dShadow := raw.masked }
  /-- HASUPD in one step, the frame not adopted. -/
  | taken : i = .hasupd → Effect s i { s with dReady := false, hasupd := .idle }
  /-- The first step of a split HASUPD. -/
  | split : i = .hasupd → s.cfg.hasupdAtomic = false → s.hasupd = .idle →
    Effect s i { s with dReady := false, hasupd := .cleared }
  /-- A later step of a split HASUPD that adopts nothing. -/
  | phase : i = .hasupd → s.hasupd ≠ .idle → ∀ p, Effect s i { s with hasupd := p }
  /-- The last step of a split HASUPD, the frame adopted. -/
  | splitShadow : i = .hasupd → s.hasupd ≠ .idle → ∀ raw : Frame,
    Effect s i { s with hasupd := .idle, dShadow := raw.masked }
  /-- SCANSTART, or a SCANTICK whose periodic entry is due. -/
  | enterPass : (∃ now, i = .scanstart now ∨ i = .scantick now) → s.scanState = .idle → Effect s i s.enterPass
  /-- SCANTICK emits the head of the queue. -/
  | queued (now : Word) (m : List Byte) : i = .scantick now → s.scanState = .stepping → s.txActive = false →
    s.cfg.variant = .heatPump → optionMessage s.cfg s.queuedOption = some m →
    Effect s i { s.startTransmission m with
      scanRemaining := s.scanRemaining - 1
      scanState := if s.scanRemaining - 1 = 0 then .awaitingLabel else .stepping }
  /-- SCANTICK sees the expected label. -/
  | label (now : Word) : i = .scantick now → s.scanState = .awaitingLabel →
    Effect s i { s with labelSeenAt := now, scanState := .awaitingValue }
  /-- SCANTICK sees the label again. -/
  | labelAgain (now : Word) : i = .scantick now → s.scanState = .awaitingValue →
    Effect s i { s with labelSeenAt := now }
  /-- SCANTICK captures the last value. -/
  | lastValue (now : Word) (m : List Byte) (x : BitVec 32) : i = .scantick now → s.scanState = .awaitingValue →
    s.txActive = false → s.cfg.variant = .heatPump → optionMessage s.cfg s.cfg.optAdvance = some m →
    27 ≤ s.scanIndex + 1 →
    Effect s i { s.startTransmission m with
      props := s.props.set s.scanIndex x
      scanIndex := s.scanIndex + 1, scanState := .idle, passEndTime := now, passDone := true }
  /-- SCANTICK captures a value. -/
  | value (now : Word) (m : List Byte) (x : BitVec 32) : i = .scantick now → s.scanState = .awaitingValue →
    s.txActive = false → s.cfg.variant = .heatPump → optionMessage s.cfg s.cfg.optAdvance = some m →
    s.scanIndex + 1 < 27 →
    Effect s i { s.startTransmission m with
      props := s.props.set s.scanIndex x
      scanIndex := s.scanIndex + 1, scanState := .awaitingLabel }
  /-- An accepted edge in state Preamble. -/
  | search (now : Word) : i = .rxedge now → s.listening = true → s.received = false → s.rxState = .preamble →
    Effect s i (s.storeEdge now).searchSync
  /-- An accepted edge in state Message. -/
  | count (now : Word) : i = .rxedge now → s.listening = true → s.received = false → s.rxState = .message →
    Effect s i (s.storeEdge now).countEdge
  /-- TXCMP takes the next entry. -/
  | nextEntry : i = .txcmp → s.txActive = true → s.txIdx + 1 < s.cfg.tableLen →
    Effect s i ({ s with
      txIdx := s.txIdx + 1
      txPin := !s.txPin
      txCompare := s.txTable.getD (s.txIdx + 1) 0 }.emitToggle (!s.txPin) (s.txTable.getD (s.txIdx + 1) 0))
  /-- TXCMP ends the transmission. -/
  | lastEntry : i = .txcmp → s.txActive = true → ¬ s.txIdx + 1 < s.cfg.tableLen →
    Effect s i { s with txIdx := s.txIdx + 1, txActive := false, hostBlocked := false }
  /-- DCLK samples a bit. -/
  | bit (d : Bool) : i = .dclk d → s.dBytePos ≠ 3 → s.dBitPos.val < 7 →
    Effect s i { s with dByte := s.sample d, dBitPos := s.dBitPos + 1 }
  /-- DCLK completes a byte. -/
  | byte (d : Bool) : i = .dclk d → s.dBytePos ≠ 3 →
    Effect s i { s with
      dRaw := s.dRaw.put s.dBytePos (s.sample d)
      dByte := 0
      dBitPos := 0
      dBytePos := s.dBytePos + 1
      dReady := if s.dBytePos + 1 = 3 then true else s.dReady }
  /-- DSTB. -/
  | strobe : i = .dstb → Effect s i { s with dBitPos := 0, dBytePos := 0, dByte := 0 }
  /-- A message on the wire. -/
  | message (m : List Byte) (now : Word) : Effect s i (s.deliverMessage m now)

/-- Whatever operation or event runs, its next state is among the effects. -/
theorem exec_effect (s : State) (i : Instr) : ∀ t, exec i s = .next t → Effect s i t := by
  have R0 : ∀ st r t, (Host.Outcome.next (s.respond st r) : Out) = .next t → Effect s i t :=
    fun st r t h => by injection h with h; subst h; exact .respond _ _ .stay
  have R : ∀ u st r t, (Host.Outcome.next (State.respond u st r) : Out) = .next t → Effect s i u →
      Effect s i t :=
    fun u st r t h hu => by injection h with h; subst h; exact .respond _ _ hu
  have N : ∀ u t, (Host.Outcome.next u : Out) = .next t → Effect s i u → Effect s i t :=
    fun u t h hu => by injection h with h; subst h; exact hu
  have G : ∀ {α : Type} (ks : List Kind) (f : FieldMap → Field) (value : Nat → Option α)
    (result : α → Result) t, s.getter ks f value result = .next t → Effect s i t := by
    intro α ks f v r t h
    obtain ⟨st, r, -, h2⟩ := getter_next s ks f v r
    rw [h2] at h; exact R0 _ _ _ h
  have S : ∀ (ks : List Kind) (w : Option State) t, s.setter ks w = .next t →
      (∀ u, w = some u → s.cfg.variant = .heatPump → Effect s i u) → Effect s i t := by
    intro ks w t h hw
    rcases setter_next s ks w with ⟨u, h1, hv, _, h2⟩ | ⟨st, -, h2⟩
    · rw [h2] at h; exact R _ _ _ _ h (hw _ h1 hv)
    · rw [h2] at h; exact R0 _ _ _ h
  have H : ∀ (k : Out) t, s.heatPumpOnly k = .next t →
      (s.cfg.variant = .heatPump → k = .next t → Effect s i t) → Effect s i t := by
    intro k t h hk
    cases hv : s.cfg.variant
    · rw [heatPumpOnly_of_generic hv] at h; exact R0 _ _ _ h
    · rw [heatPumpOnly_of_heatPump hv] at h; exact hk hv h
  have field1 : ∀ f v, writesMessage i = true → s.cfg.variant = .heatPump →
      f ∈ commandFields s.cfg.fieldMap ++ [s.cfg.fieldMap.status, s.cfg.fieldMap.time, s.cfg.fieldMap.option,
        s.cfg.fieldMap.fmState, s.cfg.fieldMap.fmTemp] →
      Effect s i { s with cm := putField s.cm f v } :=
    fun f v hm hv hf => .field f v hm hv hf _ .stay rfl
  intro t ht
  cases i <;> simp only [exec] at ht
  case nop => exact R0 _ _ _ ht
  case reset c =>
    unfold execReset at ht; split at ht
    · next h => exact R _ _ _ _ ht (Effect.construct c rfl h)
    · exact R0 _ _ _ ht
  case status sel => unfold execStatus at ht; split at ht <;> exact R0 _ _ _ ht
  case twmk => unfold execTwmk at ht; split at ht; exact R0 _ _ _ ht; split at ht <;> exact R0 _ _ _ ht
  case twin => exact R0 _ _ _ ht
  case send m =>
    unfold execSend at ht; split at ht; exact R0 _ _ _ ht
    next h => exact R _ _ _ _ ht (Effect.transmit m rfl (by simpa using h))
  case sendW m =>
    unfold execSendW at ht; split at ht; exact R0 _ _ _ ht
    next h => exact N _ _ ht (Effect.transmitWaiting m rfl (by simpa using h))
  case listen => exact R _ _ _ _ ht (Effect.attach rfl)
  case listenstop => exact R _ _ _ _ ht (Effect.detach rfl)
  case chkmsg =>
    unfold execChkmsg at ht; split at ht
    · next hr =>
      have hz : (zeroBuffer s.cfg).length = s.cfg.msgLen := by simp [zeroBuffer]
      have hl := walk_length s.dataDurations 0 (zeroBuffer s.cfg) hz
      split at ht
      · next heq => rw [heq] at hl; exact R _ _ _ _ ht (Effect.drain _ rfl hr hl)
      · exact R _ _ _ _ ht (Effect.drain _ rfl hr hz)
      · exact R _ _ _ _ ht (Effect.drain _ rfl hr hz)
    · exact R0 _ _ _ ht
  case isvalid b now =>
    refine H _ _ ht fun hv ht => ?_
    unfold State.validate at ht; split at ht
    · next hc => exact R _ _ _ _ ht (Effect.adopt b now _ _ (.inl ⟨rfl, rfl⟩) hv hc)
    · exact R0 _ _ _ ht
  case isvalidS b now =>
    refine H _ _ ht fun hv ht => ?_
    unfold State.validate at ht; split at ht
    · next hc => exact R _ _ _ _ ht (Effect.adopt b now _ _ (.inr ⟨rfl, rfl⟩) hv hc)
    · exact R0 _ _ _ ht
  case getmsg => refine H _ _ ht fun hv ht => ?_; exact R _ _ _ _ ht (Effect.normalise rfl hv)
  case optcmd => refine H _ _ ht fun hv ht => ?_; split at ht <;> exact R0 _ _ _ ht
  case fmcmd =>
    refine H _ _ ht fun hv ht => ?_
    split at ht
    · exact R0 _ _ _ ht
    · split at ht
      · split at ht <;> exact R0 _ _ _ ht
      · exact R0 _ _ _ ht
  case getseq => exact H _ _ ht fun hv ht => R0 _ _ _ ht
  case getts => exact H _ _ ht fun hv ht => R0 _ _ _ ht
  case getkind => refine H _ _ ht fun hv ht => ?_; split at ht <;> exact R0 _ _ _ ht
  case getPower => exact G _ _ _ _ _ ht
  case getMode => exact G _ _ _ _ _ ht
  case getFan => exact G _ _ _ _ _ ht
  case getSleep => exact G _ _ _ _ _ ht
  case getTemp => unfold execGetTemp at ht; split at ht; exact R0 _ _ _ ht; exact G _ _ _ _ _ ht
  case getOption => exact G _ _ _ _ _ ht
  case getFmtemp => exact G _ _ _ _ _ ht
  case getFmstate => exact G _ _ _ _ _ ht
  case setPower v =>
    unfold execSetPower at ht
    apply S _ _ _ ht; intro u h hv; cases v <;> cases h
    · exact Effect.field _ _ rfl hv (by simp [commandFields]) _
        (field1 _ _ rfl hv (by simp [commandFields])) rfl
    · exact field1 _ _ rfl hv (by simp [commandFields])
  case setMode m =>
    apply S _ _ _ ht; intro u h hv; cases m with
    | none => cases h
    | some m =>
      have e1 : Effect s (.setMode (some m)) _ :=
        Effect.field s.cfg.fieldMap.mode (modeCodeOf s.cfg m) rfl hv (by simp [commandFields]) _ .stay rfl
      have e2 : Effect s (.setMode (some m)) _ :=
        Effect.field s.cfg.fieldMap.fan (fanCodeOf s.cfg .auto) rfl hv (by simp [commandFields]) _ e1 rfl
      have e3 : Effect s (.setMode (some m)) _ :=
        Effect.field s.cfg.fieldMap.sleep 0 rfl hv (by simp [commandFields]) _ e1 rfl
      have e4 : Effect s (.setMode (some m)) _ :=
        Effect.field s.cfg.fieldMap.sleep 0 rfl hv (by simp [commandFields]) _ e2 rfl
      cases h; cases m
      · exact e2
      · exact e1
      · exact e4
      · exact e1
      · exact e3
  case setFan m =>
    apply S _ _ _ ht; intro u h hv; cases m with
    | none => cases h
    | some m => cases h; unfold State.writeFan; split <;> exact field1 _ _ rfl hv (by simp [commandFields])
  case setSleep v =>
    unfold execSetSleep at ht
    apply S _ _ _ ht; intro u h hv; cases h; split
    · exact .stay
    · exact field1 _ _ rfl hv (by simp [commandFields])
  case setTemp t =>
    apply S _ _ _ ht; intro u h hv; split at h
    · cases h; exact .stay
    · split at h <;> cases h; exact field1 _ _ rfl hv (by simp [commandFields])
  case setOption t =>
    apply S _ _ _ ht; intro u h hv; split at h <;> cases h; exact field1 _ _ rfl hv (by simp [commandFields])
  case setFmtemp t =>
    apply S _ _ _ ht; intro u h hv; split at h <;> cases h; exact field1 _ _ rfl hv (by simp [commandFields])
  case setFmstate t =>
    apply S _ _ _ ht; intro u h hv; cases t <;> cases h; exact field1 _ _ rfl hv (by simp [commandFields])
  case dlisten => exact R _ _ _ _ ht (Effect.attachDisplay rfl)
  case dlistenstop => exact R _ _ _ _ ht (Effect.detachDisplay rfl)
  case hasupd =>
    unfold execHasupd at ht; split at ht
    · next hi =>
      split at ht
      · split at ht
        · unfold State.judgeFrame at ht
          split at ht
          · refine R _ _ _ _ ht ?_
            have := Effect.shadow (s := s) (i := .hasupd) rfl s.dRaw
            simpa only [hi] using this
          · refine R _ _ _ _ ht ?_; have := Effect.taken (s := s) (i := .hasupd) rfl; simpa only [hi] using this
        · next ha => exact N _ _ ht (Effect.split rfl (by simpa using ha) hi)
      · exact R0 _ _ _ ht
    · next hi => exact N _ _ ht (Effect.phase rfl (by simp [hi]) _)
    · next hi => exact N _ _ ht (Effect.phase rfl (by simp [hi]) _)
    · next hi =>
      unfold State.judgeFrame at ht
      split at ht
      · exact R _ _ _ _ ht (Effect.splitShadow rfl (by simp [hi]) _)
      · exact R _ _ _ _ ht (Effect.phase rfl (by simp [hi]) _)
  case ascii => exact R0 _ _ _ ht
  case a2i => exact R0 _ _ _ ht
  case scanstart now =>
    refine H _ _ ht fun hv ht => ?_; split at ht; exact R0 _ _ _ ht
    next h =>
      refine R _ _ _ _ ht (Effect.enterPass ⟨now, .inl rfl⟩ ?_)
      simp only [not_or, ne_eq, not_not] at h; exact h.1
  case scantick now =>
    refine H _ _ ht fun hv ht => ?_; split at ht
    · next hs =>
      unfold State.tickIdle at ht; split at ht
      · exact R _ _ _ _ ht (Effect.enterPass ⟨now, .inr rfl⟩ hs)
      · exact R0 _ _ _ ht
    · next hs =>
      unfold State.tickStepping at ht; split at ht
      · exact R0 _ _ _ ht
      · next h =>
        obtain ⟨hx, m, hm, rfl⟩ := emitOption_eq_some h
        exact R _ _ _ _ ht (Effect.queued now m rfl hs hx hv hm)
    · next hs =>
      unfold State.tickLabel at ht; split at ht
      · exact R _ _ _ _ ht (Effect.label now rfl hs)
      · exact R0 _ _ _ ht
    · next hs =>
      unfold State.tickValue at ht; split at ht
      · exact R _ _ _ _ ht (Effect.labelAgain now rfl hs)
      · split at ht
        · exact R0 _ _ _ ht
        · split at ht
          · exact R0 _ _ _ ht
          · next h =>
            obtain ⟨hx, m, hm, rfl⟩ := emitOption_eq_some h
            unfold State.capture at ht; split at ht
            · next hc => exact R _ _ _ _ ht (Effect.lastValue now m _ rfl hs hx hv hm hc)
            · next hc => exact R _ _ _ _ ht (Effect.value now m _ rfl hs hx hv hm (by simp at hc; omega))
  case propsnap => exact H _ _ ht fun hv ht => R0 _ _ _ ht
  case rxedge now =>
    unfold execRxedge at ht; split at ht
    · next h =>
      simp only [Bool.and_eq_true, Bool.not_eq_true'] at h
      split at ht
      · next h2 => exact N _ _ ht (Effect.search now rfl h.1 h.2 h2)
      · next h2 => exact N _ _ ht (Effect.count now rfl h.1 h.2 h2)
    · exact N _ _ ht .stay
  case txcmp =>
    unfold execTxcmp at ht; split at ht
    · next hx =>
      split at ht
      · next hl => exact N _ _ ht (Effect.nextEntry rfl hx hl)
      · next hl =>
        rcases releaseHost_cases { s with txIdx := s.txIdx + 1, txActive := false } with ⟨hb, h⟩ | ⟨hb, h⟩ <;>
          rw [h] at ht
        · refine N _ _ ht ?_
          exact Effect.respond .ok .empty (Effect.lastEntry rfl hx hl)
        · refine N _ _ ht ?_
          have := Effect.lastEntry (s := s) (i := .txcmp) rfl hx hl
          simp only at hb
          simpa only [hb] using this
    · exact N _ _ ht .stay
  case dclk d =>
    unfold execDclk at ht; split at ht
    · next h =>
      simp only [Bool.and_eq_true, decide_eq_true_eq] at h
      split at ht
      · next hp => exact N _ _ ht (Effect.bit d rfl h.2 hp)
      · exact N _ _ ht (Effect.byte d rfl h.2)
    · exact N _ _ ht .stay
  case dstb => unfold execDstb at ht; split at ht; exact N _ _ ht (Effect.strobe rfl); exact N _ _ ht .stay
  case msgCommand => exact N _ _ ht (Effect.message _ _)
  case msgOption => exact N _ _ ht (Effect.message _ _)
  case msgFollowme => exact N _ _ ht (Effect.message _ _)

end Sys2Proof.Machine
end

