-- ==== Sys2Proof/Laws/PerInstr.lean ====
section
/-! SUPPORT. One fact for every instruction: the code that opens its encoding is the one its row of
spec/opcode_table.json gives it. The codes below are the table's, written out again and not read from the encoder. -/

namespace Sys2Proof.Laws

/-- The table's code of each row; a MSG row is told by its kind instead. -/
def tableCode : Instr → Option Nat
  | .nop => some 0x00
  | .reset _ => some 0x01
  | .status _ => some 0x02
  | .twmk _ _ _ => some 0x04
  | .twin _ _ => some 0x05
  | .send _ => some 0x20
  | .sendW _ => some 0x21
  | .listen => some 0x22
  | .listenstop => some 0x23
  | .chkmsg => some 0x24
  | .isvalid _ _ => some 0x40
  | .isvalidS _ _ => some 0x41
  | .getmsg => some 0x42
  | .optcmd _ => some 0x43
  | .fmcmd _ _ _ => some 0x44
  | .getseq => some 0x45
  | .getts => some 0x46
  | .getkind => some 0x47
  | .getPower => some 0x48
  | .setPower _ => some 0x49
  | .getMode => some 0x4A
  | .setMode _ => some 0x4B
  | .getFan => some 0x4C
  | .setFan _ => some 0x4D
  | .getSleep => some 0x4E
  | .setSleep _ => some 0x4F
  | .getTemp => some 0x50
  | .setTemp _ => some 0x51
  | .getOption => some 0x52
  | .setOption _ => some 0x53
  | .getFmtemp => some 0x54
  | .setFmtemp _ => some 0x55
  | .getFmstate => some 0x56
  | .setFmstate _ => some 0x57
  | .dlisten => some 0x60
  | .dlistenstop => some 0x61
  | .hasupd => some 0x62
  | .ascii => some 0x63
  | .a2i _ => some 0x64
  | .scanstart _ => some 0x80
  | .scantick _ => some 0x81
  | .propsnap => some 0x82
  | .rxedge _ => some 0x0
  | .txcmp => some 0x1
  | .dclk _ => some 0x2
  | .dstb => some 0x3
  | .msgCommand _ _ => none
  | .msgOption _ _ => none
  | .msgFollowme _ _ => none

/-- The kind of a MSG row. -/
def tableKind : Instr → Option Kind
  | .nop => none
  | .reset _ => none
  | .status _ => none
  | .twmk _ _ _ => none
  | .twin _ _ => none
  | .send _ => none
  | .sendW _ => none
  | .listen => none
  | .listenstop => none
  | .chkmsg => none
  | .isvalid _ _ => none
  | .isvalidS _ _ => none
  | .getmsg => none
  | .optcmd _ => none
  | .fmcmd _ _ _ => none
  | .getseq => none
  | .getts => none
  | .getkind => none
  | .getPower => none
  | .setPower _ => none
  | .getMode => none
  | .setMode _ => none
  | .getFan => none
  | .setFan _ => none
  | .getSleep => none
  | .setSleep _ => none
  | .getTemp => none
  | .setTemp _ => none
  | .getOption => none
  | .setOption _ => none
  | .getFmtemp => none
  | .setFmtemp _ => none
  | .getFmstate => none
  | .setFmstate _ => none
  | .dlisten => none
  | .dlistenstop => none
  | .hasupd => none
  | .ascii => none
  | .a2i _ => none
  | .scanstart _ => none
  | .scantick _ => none
  | .propsnap => none
  | .rxedge _ => none
  | .txcmp => none
  | .dclk _ => none
  | .dstb => none
  | .msgCommand _ _ => some .command
  | .msgOption _ _ => some .option
  | .msgFollowme _ _ => some .followMe

/-- The first byte of an encoding is the row's code, and a wire message that is well-formed carries the row's kind in
byte 0 of its buffer (R36, R37, R43). -/
def OpcodeByte.Statement (i : Instr) : Prop :=
  (∀ n, tableCode i = some n → (encode i).head? = some (BitVec.ofNat 8 n)) ∧
  (∀ k, tableKind i = some k → ∀ c, i.wellFormed c = true →
    Machine.wireKind c ((encode i).take c.msgLen) = some k)

/-- A row with a code. -/
theorem opcodeByte_of_code {i : Instr} {n : Nat} (hc : tableCode i = some n) (hk : tableKind i = none)
    (h : (encode i).head? = some (BitVec.ofNat 8 n)) : OpcodeByte.Statement i := by
  refine ⟨fun m hm => ?_, fun k hk' => ?_⟩
  · rw [hc] at hm; cases hm; exact h
  · rw [hk] at hk'; cases hk'

/-- A wire message. -/
theorem opcodeByte_of_kind {i : Instr} {k : Kind} {buf : List Byte} {now : Word} (hc : tableCode i = none)
    (hk : tableKind i = some k) (he : encode i = buf ++ putWord now)
    (hw : ∀ c, i.wellFormed c = (isBuffer c buf && Machine.wireKind c buf == some k)) :
    OpcodeByte.Statement i := by
  refine ⟨fun m hm => ?_, fun k' hk' c h => ?_⟩
  · rw [hc] at hm; cases hm
  · rw [hk] at hk'; cases hk'
    rw [hw, Bool.and_eq_true, isBuffer, decide_eq_true_eq, beq_iff_eq] at h
    rw [he, ← h.1, List.take_left]
    exact h.2

theorem OpcodeByte.nop : OpcodeByte.Statement .nop :=
  opcodeByte_of_code rfl rfl rfl
theorem OpcodeByte.reset (config : Configuration) : OpcodeByte.Statement (.reset config) :=
  opcodeByte_of_code rfl rfl rfl
theorem OpcodeByte.status (sel : Byte) : OpcodeByte.Statement (.status sel) :=
  opcodeByte_of_code rfl rfl rfl
theorem OpcodeByte.twmk (nominal : Word) (epsNum : Word) (epsDen : Word) : OpcodeByte.Statement (.twmk nominal epsNum epsDen) :=
  opcodeByte_of_code rfl rfl rfl
theorem OpcodeByte.twin (w : Window) (d : Word) : OpcodeByte.Statement (.twin w d) :=
  opcodeByte_of_code rfl rfl rfl
theorem OpcodeByte.send (m : List Byte) : OpcodeByte.Statement (.send m) :=
  opcodeByte_of_code rfl rfl rfl
theorem OpcodeByte.sendW (m : List Byte) : OpcodeByte.Statement (.sendW m) :=
  opcodeByte_of_code rfl rfl rfl
theorem OpcodeByte.listen : OpcodeByte.Statement .listen :=
  opcodeByte_of_code rfl rfl rfl
theorem OpcodeByte.listenstop : OpcodeByte.Statement .listenstop :=
  opcodeByte_of_code rfl rfl rfl
theorem OpcodeByte.chkmsg : OpcodeByte.Statement .chkmsg :=
  opcodeByte_of_code rfl rfl rfl
theorem OpcodeByte.isvalid (b : List Byte) (now : Word) : OpcodeByte.Statement (.isvalid b now) :=
  opcodeByte_of_code rfl rfl rfl
theorem OpcodeByte.isvalidS (b : List Byte) (now : Word) : OpcodeByte.Statement (.isvalidS b now) :=
  opcodeByte_of_code rfl rfl rfl
theorem OpcodeByte.getmsg : OpcodeByte.Statement .getmsg :=
  opcodeByte_of_code rfl rfl rfl
theorem OpcodeByte.optcmd (o : Byte) : OpcodeByte.Statement (.optcmd o) :=
  opcodeByte_of_code rfl rfl rfl
theorem OpcodeByte.fmcmd (prev : List Byte) (st : Option FmState) (t : Int) : OpcodeByte.Statement (.fmcmd prev st t) :=
  opcodeByte_of_code rfl rfl rfl
theorem OpcodeByte.getseq : OpcodeByte.Statement .getseq :=
  opcodeByte_of_code rfl rfl rfl
theorem OpcodeByte.getts : OpcodeByte.Statement .getts :=
  opcodeByte_of_code rfl rfl rfl
theorem OpcodeByte.getkind : OpcodeByte.Statement .getkind :=
  opcodeByte_of_code rfl rfl rfl
theorem OpcodeByte.getPower : OpcodeByte.Statement .getPower :=
  opcodeByte_of_code rfl rfl rfl
theorem OpcodeByte.setPower (v : Bool) : OpcodeByte.Statement (.setPower v) :=
  opcodeByte_of_code rfl rfl rfl
theorem OpcodeByte.getMode : OpcodeByte.Statement .getMode :=
  opcodeByte_of_code rfl rfl rfl
theorem OpcodeByte.setMode (m : Option Mode) : OpcodeByte.Statement (.setMode m) :=
  opcodeByte_of_code rfl rfl rfl
theorem OpcodeByte.getFan : OpcodeByte.Statement .getFan :=
  opcodeByte_of_code rfl rfl rfl
theorem OpcodeByte.setFan (f : Option Fan) : OpcodeByte.Statement (.setFan f) :=
  opcodeByte_of_code rfl rfl rfl
theorem OpcodeByte.getSleep : OpcodeByte.Statement .getSleep :=
  opcodeByte_of_code rfl rfl rfl
theorem OpcodeByte.setSleep (v : Bool) : OpcodeByte.Statement (.setSleep v) :=
  opcodeByte_of_code rfl rfl rfl
theorem OpcodeByte.getTemp : OpcodeByte.Statement .getTemp :=
  opcodeByte_of_code rfl rfl rfl
theorem OpcodeByte.setTemp (t : Int) : OpcodeByte.Statement (.setTemp t) :=
  opcodeByte_of_code rfl rfl rfl
theorem OpcodeByte.getOption : OpcodeByte.Statement .getOption :=
  opcodeByte_of_code rfl rfl rfl
theorem OpcodeByte.setOption (o : Byte) : OpcodeByte.Statement (.setOption o) :=
  opcodeByte_of_code rfl rfl rfl
theorem OpcodeByte.getFmtemp : OpcodeByte.Statement .getFmtemp :=
  opcodeByte_of_code rfl rfl rfl
theorem OpcodeByte.setFmtemp (t : Int) : OpcodeByte.Statement (.setFmtemp t) :=
  opcodeByte_of_code rfl rfl rfl
theorem OpcodeByte.getFmstate : OpcodeByte.Statement .getFmstate :=
  opcodeByte_of_code rfl rfl rfl
theorem OpcodeByte.setFmstate (st : Option FmState) : OpcodeByte.Statement (.setFmstate st) :=
  opcodeByte_of_code rfl rfl rfl
theorem OpcodeByte.dlisten : OpcodeByte.Statement .dlisten :=
  opcodeByte_of_code rfl rfl rfl
theorem OpcodeByte.dlistenstop : OpcodeByte.Statement .dlistenstop :=
  opcodeByte_of_code rfl rfl rfl
theorem OpcodeByte.hasupd : OpcodeByte.Statement .hasupd :=
  opcodeByte_of_code rfl rfl rfl
theorem OpcodeByte.ascii : OpcodeByte.Statement .ascii :=
  opcodeByte_of_code rfl rfl rfl
theorem OpcodeByte.a2i (text : List Ch) : OpcodeByte.Statement (.a2i text) :=
  opcodeByte_of_code rfl rfl rfl
theorem OpcodeByte.scanstart (now : Word) : OpcodeByte.Statement (.scanstart now) :=
  opcodeByte_of_code rfl rfl rfl
theorem OpcodeByte.scantick (now : Word) : OpcodeByte.Statement (.scantick now) :=
  opcodeByte_of_code rfl rfl rfl
theorem OpcodeByte.propsnap : OpcodeByte.Statement .propsnap :=
  opcodeByte_of_code rfl rfl rfl
theorem OpcodeByte.rxedge (now : Word) : OpcodeByte.Statement (.rxedge now) :=
  opcodeByte_of_code rfl rfl rfl
theorem OpcodeByte.txcmp : OpcodeByte.Statement .txcmp :=
  opcodeByte_of_code rfl rfl rfl
theorem OpcodeByte.dclk (data : Bool) : OpcodeByte.Statement (.dclk data) :=
  opcodeByte_of_code rfl rfl rfl
theorem OpcodeByte.dstb : OpcodeByte.Statement .dstb :=
  opcodeByte_of_code rfl rfl rfl
theorem OpcodeByte.msgCommand (buf : List Byte) (now : Word) : OpcodeByte.Statement (.msgCommand buf now) :=
  opcodeByte_of_kind rfl rfl rfl fun _ => rfl
theorem OpcodeByte.msgOption (buf : List Byte) (now : Word) : OpcodeByte.Statement (.msgOption buf now) :=
  opcodeByte_of_kind rfl rfl rfl fun _ => rfl
theorem OpcodeByte.msgFollowme (buf : List Byte) (now : Word) : OpcodeByte.Statement (.msgFollowme buf now) :=
  opcodeByte_of_kind rfl rfl rfl fun _ => rfl

end Sys2Proof.Laws
end

