-- ==== Sys2Proof/Tests/Slice0.lean ====
section
/-! SUPPORT. Tests: ill-formed terms refused, words written out from the spec's encodings, one step of every operation
with the expected values of spec/95_test_vectors.md (the vector's name stands in each docstring), and a witness for every
statement that has hypotheses. -/

namespace Sys2Proof.Tests

open Sys2Proof Sys2Proof.Machine

/-! ### Helpers -/

/-- The newest response after an operation. -/
def answer : Out → Option Response
  | .next t => t.responses.getLast?
  | .fault _ => none
  | .refused _ => none

/-- A field of the next state. -/
def look {α : Type} (f : State → α) : Out → Option α
  | .next t => some (f t)
  | .fault _ => none
  | .refused _ => none

/-- The fault an outcome stops with. -/
def stopped : Out → Option Fault
  | .next _ => none
  | .fault f => some f
  | .refused _ => none

/-- TINY of spec/92_eei_decisions.md section 2. -/
def tiny : Configuration := { Configuration.refHp with
  variant := .generic, sampleCount := 1, bitCount := 4, syncCount := 2
  syncWindows := [⟨900, 675, 1125⟩, ⟨450, 337, 563⟩], separatorWindow := ⟨56, 42, 70⟩, zeroWindow := ⟨56, 42, 70⟩
  oneWindow := ⟨168, 126, 210⟩, breakWindow := ⟨500, 375, 625⟩, ringCap := 16, ticksPerUs := 1 }

/-- The block of TINY after RESET. -/
def tinyState : State := State.construct tiny

/-- TINY with transmission of [A0] under way (vector T9). -/
def tinySending : State := tinyState.startTransmission [0xA0]

/-- TINY with the ring of program P1, one sync just before the write index. -/
def tinyRing : State := { tinyState with
  listening := true, wrIdx := 2, lastEdgeTime := 10900
  ring := [10000, 900] ++ List.replicate 14 0 }

/-- TINY with the message of program P1 pending. -/
def tinyPending : State := { tinyState with
  received := true, rxState := .message, edgeCount := 11, preambleIdx := 1, wrIdx := 12, lastEdgeTime := 12078
  ring := [10000, 900, 450, 56, 168, 56, 56, 56, 168, 56, 56, 56, 0, 0, 0, 0] }

/-- The message `g` of the codec vectors. -/
def g : List Byte := [0xA1, 0x8A, 0x05, 0x00, 0x00, 0x89, 0x5E, 0x75, 0xFA, 0xFF, 0xFF, 0x7A]

/-- The Option message of vector K21. -/
def k21 : List Byte := [0xA2, 0x02, 0x00, 0x00, 0x00, 0x7A, 0x5D, 0xFD, 0xFF, 0xFF, 0xFF, 0x89]

/-- The FollowMe message of vector K27. -/
def k27 : List Byte := [0xA4, 0x8A, 0x05, 0x80, 0x17, 0x00, 0x5B, 0x75, 0xFA, 0x7F, 0xE8, 0x03]

/-- The message of vector K10a, whose kind 8 is none of the three. -/
def k10a : List Byte := [0xA8, 0x00, 0x00, 0x00, 0x00, 0xEA, 0x57, 0xFF, 0xFF, 0xFF, 0xFF, 0x19]

/-- REF_HP after reset, owning a message. -/
def owning (b : List Byte) : State := { State.reset with cm := b }

/-- REF_HP with a stable display frame. -/
def showing (x y z : Byte) : State := { State.reset with dShadow := ⟨x, y, z⟩ }

/-- A number's four bytes, least significant first, by division. -/
def le (n : Nat) : List Byte := [BitVec.ofNat 8 n, BitVec.ofNat 8 (n / 256), BitVec.ofNat 8 (n / 65536),
  BitVec.ofNat 8 (n / 16777216)]

/-! ### WellFormed refuses ill-formed terms -/

theorem test_wf_reset : (Instr.reset { Configuration.refHp with epsNum := 2 ^ 32 }).wellFormed .refHp = false := by
  decide
theorem test_wf_reset_temperature :
    (Instr.reset { Configuration.refHp with tempMin := -2 ^ 31 - 1 }).wellFormed .refHp = false := by decide
theorem test_wf_reset_field :
    (Instr.reset { Configuration.refHp with fieldMap.power := ⟨2 ^ 32, 1⟩ }).wellFormed .refHp = false := by
  decide
theorem test_wf_reset_checksum :
    (Instr.reset { Configuration.refHp with checksum := .other (2 ^ 32 - 1) }).wellFormed .refHp = false := by
  decide
theorem test_wf_send : (Instr.send (g.take 11)).wellFormed .refHp = false := by decide
theorem test_wf_sendW : (Instr.sendW (0 :: g)).wellFormed .refHp = false := by decide
theorem test_wf_isvalid : (Instr.isvalid [] 0).wellFormed .refHp = false := by decide
theorem test_wf_isvalidS : (Instr.isvalidS (g.take 11) 0).wellFormed .refHp = false := by decide
theorem test_wf_fmcmd : (Instr.fmcmd (g.take 11) (some .start) 0).wellFormed .refHp = false := by decide
theorem test_wf_fmcmd_range : (Instr.fmcmd g (some .start) (2 ^ 31)).wellFormed .refHp = false := by decide
theorem test_wf_setTemp : (Instr.setTemp (-2 ^ 31 - 1)).wellFormed .refHp = false := by decide
theorem test_wf_setFmtemp : (Instr.setFmtemp (2 ^ 31)).wellFormed .refHp = false := by decide
theorem test_wf_a2i : (Instr.a2i [48, 48, 48, 48, 48]).wellFormed .refHp = false := by decide
theorem test_wf_msg_length : (Instr.msgCommand (g.take 11) 0).wellFormed .refHp = false := by decide
theorem test_wf_msgCommand_kind : (Instr.msgCommand k21 0).wellFormed .refHp = false := by decide
theorem test_wf_msgOption_kind : (Instr.msgOption g 0).wellFormed .refHp = false := by decide
theorem test_wf_msgFollowme_kind : (Instr.msgFollowme k21 0).wellFormed .refHp = false := by decide
theorem test_wf_msg_generic : (Instr.msgCommand [0xA1] 0).wellFormed tiny = false := by decide

/-! ### Decoding, on words written out (codes of R36, R37, R43; bundles of notes/assumptions/2.md) -/

theorem test_decode_nop : decode .refHp (.command [0x00]) = .instr .nop := by decide

/-- The operand bundle of RESET, field by field: the record has no option, segment or label. -/
theorem test_decode_reset : decode .refHp (.command ([0x01, 0x01] ++ le 1 ++ le 4 ++ le 2 ++ le 48 ++ le 2 ++
    (le 1 ++ le 4400 ++ le 3300 ++ le 5500) ++ (le 560 ++ le 420 ++ le 700) ++ (le 561 ++ le 421 ++ le 701) ++
    (le 1680 ++ le 1260 ++ le 2100) ++ (le 5220 ++ le 3915 ++ le 6525) ++ le 256 ++ le 5 ++ [0x01, 0x00] ++
    [0xF0, 0xA0, 0x0F, 0x01, 0x02, 0x04] ++ le 3 ++
    (le 8 ++ le 1 ++ le 9 ++ le 1 ++ le 10 ++ le 3 ++ le 13 ++ le 2 ++ le 19 ++ le 5 ++ le 24 ++ le 8 ++ le 32 ++
      le 8 ++ le 8 ++ le 7 ++ le 24 ++ le 2 ++ le 33 ++ le 6) ++
    (le 0 ++ le 1 ++ le 2 ++ le 3 ++ le 4) ++ (le 3 ++ le 2 ++ le 1 ++ le 0) ++ (le 5 ++ le 6 ++ le 7) ++
    [0xFF, 0xFF, 0xFF, 0xFF] ++ le 17 ++ le 30 ++ le 0 ++ [0xFE, 0xFF, 0xFF, 0xFF] ++ le 50 ++
    le 0 ++ [0x20] ++ le 0 ++ le 0 ++ le 2 ++ le 1 ++ [0x02, 0x03] ++ le 300 ++ ([0x01] ++ le 9) ++ le 60000)) =
    .instr (.reset { Configuration.refHp with
      syncWindows := [⟨4400, 3300, 5500⟩], zeroWindow := ⟨561, 421, 701⟩
      malformedPolicy := .restartCount, hasupdAtomic := false, checksum := .other 2
      fieldMap.option := ⟨8, 7⟩, fieldMap.fmTemp := ⟨33, 6⟩
      fanCode := ⟨3, 2, 1, 0⟩, fmStateCode := ⟨5, 6, 7⟩, tempOffset := -1, fmTempMin := -2
      optionSet := [], blankCode := 0x20, segTable := [], labels := [], scanInterval := some 9 }) := by
  decide

theorem test_decode_status : decode .refHp (.command [0x02, 0x0B]) = .instr (.status 11) := by decide
theorem test_decode_twmk : decode .refHp (.command [0x04, 0x30, 0x02, 0, 0, 1, 0, 0, 0, 4, 0, 0, 0]) =
    .instr (.twmk 560 1 4) := by decide
theorem test_decode_twin : decode .refHp (.command [0x05, 0x30, 0x02, 0, 0, 0xA4, 0x01, 0, 0, 0xBC, 0x02, 0, 0,
    0x78, 0x56, 0x34, 0x12]) = .instr (.twin ⟨560, 420, 700⟩ 0x12345678) := by decide
theorem test_decode_send : decode tiny (.command [0x20, 0xA0]) = .instr (.send [0xA0]) := by decide
theorem test_decode_sendW : decode tiny (.command [0x21, 0x50]) = .instr (.sendW [0x50]) := by decide
theorem test_decode_listen : decode .refHp (.command [0x22]) = .instr .listen := by decide
theorem test_decode_listenstop : decode .refHp (.command [0x23]) = .instr .listenstop := by decide
theorem test_decode_chkmsg : decode .refHp (.command [0x24]) = .instr .chkmsg := by decide
theorem test_decode_isvalid : decode .refHp (.command [0x40, 0xA1, 0x8A, 0x05, 0x00, 0x00, 0x89, 0x5E, 0x75, 0xFA,
    0xFF, 0xFF, 0x7A, 0xF4, 0x01, 0x00, 0x00]) = .instr (.isvalid g 500) := by decide
theorem test_decode_isvalidS : decode tiny (.command [0x41, 0x12, 0x01, 0x02, 0x03, 0x04]) =
    .instr (.isvalidS [0x12] 0x04030201) := by decide
theorem test_decode_getmsg : decode .refHp (.command [0x42]) = .instr .getmsg := by decide
theorem test_decode_optcmd : decode .refHp (.command [0x43, 0x02]) = .instr (.optcmd 2) := by decide
theorem test_decode_fmcmd : decode tiny (.command [0x44, 0x77, 0x02, 0xFF, 0xFF, 0xFF, 0xFF]) =
    .instr (.fmcmd [0x77] (some .stop) (-1)) := by decide
theorem test_decode_getseq : decode .refHp (.command [0x45]) = .instr .getseq := by decide
theorem test_decode_getts : decode .refHp (.command [0x46]) = .instr .getts := by decide
theorem test_decode_getkind : decode .refHp (.command [0x47]) = .instr .getkind := by decide
theorem test_decode_getPower : decode .refHp (.command [0x48]) = .instr .getPower := by decide
theorem test_decode_setPower : decode .refHp (.command [0x49, 0x01]) = .instr (.setPower true) := by decide
theorem test_decode_getMode : decode .refHp (.command [0x4A]) = .instr .getMode := by decide
theorem test_decode_setMode : decode .refHp (.command [0x4B, 0x02]) = .instr (.setMode (some .dry)) := by
  decide
theorem test_decode_getFan : decode .refHp (.command [0x4C]) = .instr .getFan := by decide
theorem test_decode_setFan : decode .refHp (.command [0x4D, 0x04]) = .instr (.setFan none) := by decide
theorem test_decode_getSleep : decode .refHp (.command [0x4E]) = .instr .getSleep := by decide
theorem test_decode_setSleep : decode .refHp (.command [0x4F, 0x00]) = .instr (.setSleep false) := by decide
theorem test_decode_getTemp : decode .refHp (.command [0x50]) = .instr .getTemp := by decide
theorem test_decode_setTemp : decode .refHp (.command [0x51, 0xFE, 0xFF, 0xFF, 0xFF]) = .instr (.setTemp (-2)) := by
  decide
theorem test_decode_getOption : decode .refHp (.command [0x52]) = .instr .getOption := by decide
theorem test_decode_setOption : decode .refHp (.command [0x53, 0x05]) = .instr (.setOption 5) := by decide
theorem test_decode_getFmtemp : decode .refHp (.command [0x54]) = .instr .getFmtemp := by decide
theorem test_decode_setFmtemp : decode .refHp (.command [0x55, 0x17, 0, 0, 0]) = .instr (.setFmtemp 23) := by
  decide
theorem test_decode_getFmstate : decode .refHp (.command [0x56]) = .instr .getFmstate := by decide
theorem test_decode_setFmstate : decode .refHp (.command [0x57, 0x01]) = .instr (.setFmstate (some .update)) := by
  decide
theorem test_decode_dlisten : decode .refHp (.command [0x60]) = .instr .dlisten := by decide
theorem test_decode_dlistenstop : decode .refHp (.command [0x61]) = .instr .dlistenstop := by decide
theorem test_decode_hasupd : decode .refHp (.command [0x62]) = .instr .hasupd := by decide
theorem test_decode_ascii : decode .refHp (.command [0x63]) = .instr .ascii := by decide
theorem test_decode_a2i : decode .refHp (.command [0x64, 0x03, 0x2D, 0x31, 0x46, 0x00]) =
    .instr (.a2i [ch '-', ch '1', ch 'F']) := by decide
theorem test_decode_scanstart : decode .refHp (.command [0x80, 0xE8, 0x03, 0, 0]) = .instr (.scanstart 1000) := by
  decide
theorem test_decode_scantick : decode .refHp (.command [0x81, 0x4C, 0x04, 0, 0]) = .instr (.scantick 1100) := by
  decide
theorem test_decode_propsnap : decode .refHp (.command [0x82]) = .instr .propsnap := by decide
theorem test_decode_rxedge : decode .refHp (.event [0x00, 0x10, 0x27, 0, 0]) = .instr (.rxedge 10000) := by
  decide
theorem test_decode_txcmp : decode .refHp (.event [0x01]) = .instr .txcmp := by decide
theorem test_decode_dclk : decode .refHp (.event [0x02, 0x01]) = .instr (.dclk true) := by decide
theorem test_decode_dstb : decode .refHp (.event [0x03]) = .instr .dstb := by decide
theorem test_decode_msgCommand : decode .refHp (.wire ([0xA1, 0x8A, 0x05, 0x00, 0x00, 0x89, 0x5E, 0x75, 0xFA, 0xFF,
    0xFF, 0x7A] ++ [0x01, 0, 0, 0])) = .instr (.msgCommand g 1) := by decide
theorem test_decode_msgOption : decode .refHp (.wire ([0xA2, 0x02, 0x00, 0x00, 0x00, 0x7A, 0x5D, 0xFD, 0xFF, 0xFF,
    0xFF, 0x89] ++ [0x02, 0, 0, 0])) = .instr (.msgOption k21 2) := by decide
theorem test_decode_msgFollowme : decode .refHp (.wire ([0xA4, 0x8A, 0x05, 0x80, 0x17, 0x00, 0x5B, 0x75, 0xFA, 0x7F,
    0xE8, 0x03] ++ [0x03, 0, 0, 0])) = .instr (.msgFollowme k27 3) := by decide

/-- Y5: codes R37 leaves unassigned. -/
theorem test_decode_unassigned : ∀ op ∈ ([0x03, 0x06, 0x1F, 0x25, 0x3F, 0x58, 0x5F, 0x65, 0x7F, 0x83, 0xA0, 0xFF] :
    List Byte), decode .refHp (.command [op]) = .rejected .unassignedCode := by decide
theorem test_decode_unknown_kind : decode .refHp (.wire (k10a ++ [0, 0, 0, 0])) = .rejected .unrecognisedKind := by
  decide
theorem test_decode_truncated : decode .refHp (.command (0x20 :: g.take 11)) = .rejected .truncated := by
  decide
theorem test_table_words : decodeTableWord 8 0x22 = some .listen ∧ decodeTableWord 8 0x81 = some (.scantick 0) ∧
    decodeTableWord 8 0xA2 = some (.msgOption (0xA2 :: List.replicate 11 0) 0) := by decide +kernel

/-! ### One step of every operation -/

theorem test_nop : answer (exec .nop .reset) = some ⟨.ok, .empty⟩ := by decide
/-- Y2 and Y3: `RING_CAP = N`, 44 bits, `EPS_NUM = EPS_DEN`, an option outside the set, ticks of a microsecond too many; a
TEMP_MAX whose code would be negative (R5). A marker and kinds outside their masks are no fault of a record (R5). -/
theorem test_reset_ill_formed :
    answer (exec (.reset { Configuration.refHp with ringCap := 200 }) .reset) = some ⟨.resourceExhaustion, .empty⟩ ∧
    (∀ c ∈ [{ Configuration.refHp with bitCount := 44 }, { Configuration.refHp with epsNum := 4 },
      { Configuration.refHp with optAdvance := 9 }, { Configuration.refHp with ticksPerUs := 1000000 },
      { Configuration.refHp with tempMin := 20, tempMax := 10 }], wellFormedConfig c = false) ∧
    wellFormedConfig { Configuration.refHp with markerValue := 0xAF, kindOption := 1, kindFollowMe := 0xFF } = true := by
  decide +kernel
/-- R120, R143. -/
theorem test_reset_tiny : look (fun t => (t.cfg, t.txActive, t.ring.length)) (exec (.reset tiny) { State.reset with
    txActive := true }) = some (tiny, false, 16) := by decide
/-- R127: the code of ILLEGAL_OP. -/
theorem test_status_byte : (answer (illegalOp .reset)).map Response.statusByte = some 8 := by decide
/-- T9. -/
theorem test_status_flags : answer (exec (.status 0) tinySending) = some ⟨.ok, .word 0x18⟩ := by decide
/-- Y6. -/
theorem test_status_reserved : answer (exec (.status 11) .reset) = some ⟨.invalidField, .word 0⟩ := by decide
/-- W2. -/
theorem test_twmk : answer (exec (.twmk 560 21 100) .reset) = some ⟨.ok, .window ⟨560, 442, 678⟩⟩ := by
  decide
/-- W11, W12. -/
theorem test_twmk_top : answer (exec (.twmk 3435973836 1 4) .reset) =
    some ⟨.ok, .window ⟨3435973836, 2576980377, 4294967295⟩⟩ ∧
    answer (exec (.twmk 3435973837 1 4) .reset) = some ⟨.resourceExhaustion, .empty⟩ := by decide
/-- W15, W16. -/
theorem test_twin : answer (exec (.twin ⟨560, 420, 700⟩ 700) .reset) = some ⟨.ok, .bit true⟩ ∧
    answer (exec (.twin ⟨560, 420, 700⟩ 701) .reset) = some ⟨.ok, .bit false⟩ := by decide
/-- T1, T9. -/
theorem test_send : look (fun t => (t.txTable, t.txCompare, t.txPin, t.txIdx)) (exec (.send [0xA0]) tinyState) =
    some ([900, 450, 56, 168, 56, 56, 56, 168, 56, 56, 56, 500], 900, true, 0) := by decide
/-- T10. -/
theorem test_send_busy : answer (exec (.send [0x50]) tinySending) = some ⟨.busy, .empty⟩ ∧
    look (·.txTable.getD 3 0) (exec (.send [0x50]) tinySending) = some 168 := by decide
/-- T14. -/
theorem test_sendW : look (fun t => (t.hostBlocked, t.responses)) (exec (.sendW [0xA0]) tinyState) =
    some (true, []) := by decide
/-- R65. -/
theorem test_listen : look (fun t => (t.listening, t.received, t.flags)) (exec .listen tinyPending) =
    some (true, false, 1) := by decide
/-- R66. -/
theorem test_listenstop : look (·.listening) (exec .listenstop tinyRing) = some false := by decide
/-- P1, X22. -/
theorem test_chkmsg : answer (exec .chkmsg tinyPending) = some ⟨.ok, .buffer [0xA0]⟩ := by decide
/-- X3. -/
theorem test_chkmsg_malformed : answer (exec .chkmsg { tinyPending with ring := tinyPending.ring.set 4 300 }) =
    some ⟨.malformedFrame, .empty⟩ := by decide
/-- K1. -/
theorem test_isvalid : look (fun t => (t.seqNo, t.lastSampleTime, t.cm)) (exec (.isvalid g 500) .reset) =
    some (1, 500, g) := by decide
/-- K8. -/
theorem test_isvalid_sample_one : look (fun t => (t.validSample, t.cm))
    (exec (.isvalid (g.set 0 0x51) 1200) .reset) = some (true, g) := by decide
/-- K9. -/
theorem test_isvalidS : answer (exec (.isvalidS [0xA1, 0x8A, 0x05, 0, 0, 0, 0, 0, 0, 0, 0, 0] 1600) .reset) =
    some ⟨.ok, .buffer [0xA1, 0x8A, 0x05, 0, 0, 0x89, 0, 0, 0, 0, 0, 0]⟩ := by decide
/-- K10. -/
theorem test_isvalidS_marker : answer (exec (.isvalidS [0x51, 0x8A, 0x05, 0, 0, 0, 0, 0, 0, 0, 0, 0] 1700) .reset) =
    some ⟨.invalidMarker, .buffer [0x51, 0x8A, 0x05, 0, 0, 0x84, 0, 0, 0, 0, 0, 0]⟩ := by decide
/-- K19a. -/
theorem test_getmsg : answer (exec .getmsg (owning [0xA1, 0x0C, 0x08, 0, 0, 0x7A, 0x5E, 0xFF, 0xFF, 0xFF, 0xFF,
    0x89])) = some ⟨.ok, .buffer [0xA1, 0x0C, 0x08, 0, 0, 0x3A, 0x5E, 0xF3, 0xF7, 0xFF, 0xFF, 0xC9]⟩ := by
  decide
/-- K21. -/
theorem test_optcmd : answer (exec (.optcmd 2) .reset) = some ⟨.ok, .buffer k21⟩ := by decide
/-- K24. -/
theorem test_optcmd_unknown : answer (exec (.optcmd 6) .reset) = some ⟨.invalidField, .empty⟩ := by decide
/-- K27. -/
theorem test_fmcmd : answer (exec (.fmcmd g (some .update) 23) .reset) = some ⟨.ok, .buffer k27⟩ := by decide
/-- K29, K29a. -/
theorem test_fmcmd_refused : answer (exec (.fmcmd k21 (some .update) 20) .reset) = some ⟨.invalidField, .empty⟩ ∧
    answer (exec (.fmcmd (List.replicate 12 0) (some .update) 20) .reset) = some ⟨.invalidMarker, .empty⟩ := by
  decide
/-- K34. -/
theorem test_getseq : answer (exec .getseq { State.reset with seqNo := 2 }) = some ⟨.ok, .word 2⟩ := by decide
/-- K34. -/
theorem test_getts : answer (exec .getts { State.reset with lastSampleTime := 1000 }) = some ⟨.ok, .word 1000⟩ := by
  decide
/-- K11a. -/
theorem test_getkind : answer (exec .getkind .reset) = some ⟨.ok, .kind .command⟩ := by decide
/-- K10a. -/
theorem test_getkind_unknown : answer (exec .getkind (owning k10a)) = some ⟨.unsupportedInstruction, .code 8⟩ := by
  decide
/-- K31. -/
theorem test_getPower : answer (exec .getPower (owning k27)) = some ⟨.ok, .bit true⟩ := by decide
/-- K10a. -/
theorem test_getPower_kind : answer (exec .getPower (owning k10a)) = some ⟨.invalidField, .code 0⟩ := by
  decide
/-- P2. -/
theorem test_setPower : look (·.cm.take 2) (exec (.setPower true) .reset) = some [0xA1, 0x80] := by decide
/-- R84: power-off clears sleep. -/
theorem test_setPower_off : look (·.cm.take 2) (exec (.setPower false) (owning (g.set 1 0xCA))) =
    some [0xA1, 0x0A] := by decide
/-- R85. -/
theorem test_getMode : answer (exec .getMode (owning g)) = some ⟨.ok, .mode .cool⟩ := by decide
/-- R85: mode code 5 is reserved. -/
theorem test_getMode_reserved : answer (exec .getMode (owning (g.set 1 0xA8))) = some ⟨.invalidField, .code 5⟩ := by
  decide
/-- K16. -/
theorem test_setMode : look (·.cm.take 2) (exec (.setMode (some .dry)) (owning (g.set 1 0xCE))) =
    some [0xA1, 0x90] := by decide
/-- R81. -/
theorem test_setMode_none : answer (exec (.setMode none) .reset) = some ⟨.invalidField, .empty⟩ := by decide
/-- R87. -/
theorem test_getFan : answer (exec .getFan (owning g)) = some ⟨.ok, .fan .low⟩ := by decide
/-- P2. -/
theorem test_setFan : look (·.cm.take 2) (exec (.setFan (some .low)) (owning (g.set 1 0x88))) = some [0xA1, 0x8A] := by
  decide
/-- K11. -/
theorem test_setFan_forced : look (·.cm.take 2) (exec (.setFan (some .high)) (owning (g.set 1 0xC0))) =
    some [0xA1, 0xC0] := by decide
/-- K10d. -/
theorem test_getSleep : answer (exec .getSleep (owning (g.set 1 0x60))) = some ⟨.ok, .bit true⟩ := by decide
/-- K13. -/
theorem test_setSleep : look (·.cm.take 2) (exec (.setSleep true) (owning (g.set 1 0x80))) = some [0xA1, 0xC0] := by
  decide
/-- K12. -/
theorem test_setSleep_unpowered : look (·.cm) (exec (.setSleep true) .reset) = some State.reset.cm := by decide
/-- R91. -/
theorem test_getTemp : answer (exec .getTemp (owning g)) = some ⟨.ok, .signed 22⟩ := by decide
/-- K10c. -/
theorem test_getTemp_range : answer (exec .getTemp (owning (g.set 2 0x1F))) = some ⟨.invalidField, .code 31⟩ := by
  decide
/-- K15. -/
theorem test_setTemp : look (·.cm.take 3) (exec (.setTemp 30) (owning g)) = some [0xA1, 0x8A, 0x0D] := by
  decide
/-- K15a. -/
theorem test_setTemp_range : answer (exec (.setTemp 31) .reset) = some ⟨.invalidField, .empty⟩ := by decide
/-- K25. -/
theorem test_getOption : answer (exec .getOption (owning k21)) = some ⟨.ok, .option 2⟩ := by decide
/-- K25. -/
theorem test_setOption : look (·.cm.take 2) (exec (.setOption 5) (owning k21)) = some [0xA2, 0x05] ∧
    answer (exec (.setOption 9) (owning k21)) = some ⟨.invalidField, .empty⟩ := by decide
/-- R94. -/
theorem test_setOption_kind : answer (exec (.setOption 2) .reset) = some ⟨.invalidField, .empty⟩ := by decide
/-- K31. -/
theorem test_getFmtemp : answer (exec .getFmtemp (owning k27)) = some ⟨.ok, .signed 23⟩ := by decide
/-- K32. -/
theorem test_setFmtemp : look (·.cm.take 5) (exec (.setFmtemp 0) (owning k27)) =
    some [0xA4, 0x8A, 0x05, 0x80, 0x00] := by decide
/-- R96. -/
theorem test_setFmtemp_range : answer (exec (.setFmtemp 51) (owning k27)) = some ⟨.invalidField, .empty⟩ := by
  decide
/-- K31. -/
theorem test_getFmstate : answer (exec .getFmstate (owning k27)) = some ⟨.ok, .fmState .update⟩ := by decide
/-- K32. -/
theorem test_setFmstate : look (·.cm.take 5) (exec (.setFmstate (some .stop)) (owning k27)) =
    some [0xA4, 0x8A, 0x05, 0xC0, 0x17] := by decide
/-- V18. -/
theorem test_dlisten : look (fun t => (t.dListening, t.dReady, t.dBytePos))
    (exec .dlisten { State.reset with dReady := true, dBytePos := 3 }) = some (true, false, 0) := by decide
/-- V17. -/
theorem test_dlistenstop : look (fun t => (t.dListening, t.dReady))
    (exec .dlistenstop { State.reset with dReady := true, dListening := true }) = some (false, true) := by decide
/-- V5. -/
theorem test_hasupd : look (fun t => (t.dReady, t.dShadow)) (exec .hasupd { State.reset with
    dReady := true, dRaw := ⟨0xDB, 0x66, 0x11⟩ }) = some (false, ⟨0xDA, 0x66, 0x10⟩) := by decide
/-- V8. -/
theorem test_hasupd_blank : answer (exec .hasupd { showing 0xDA 0x66 0x10 with
    dReady := true, dRaw := ⟨0xDA, 0x01, 0x30⟩ }) = some ⟨.ok, .bit false⟩ := by decide
/-- V11. -/
theorem test_ascii : answer (exec .ascii (showing 0x62 0x8E 0x00)) =
    some ⟨.ok, .text [ch '-', ch '1', ch 'F'] 0⟩ := by decide
/-- V10. -/
theorem test_ascii_unmapped : answer (exec .ascii (showing 0x5A 0xDA 0x00)) =
    some ⟨.ok, .text [ch '?', ch '2'] 0⟩ := by decide
/-- S7. -/
theorem test_a2i_negative : answer (exec (.a2i [ch '-', ch '1', ch 'F']) .reset) = some ⟨.ok, .signed (-25)⟩ := by
  decide
/-- S8. -/
theorem test_a2i_hundred : answer (exec (.a2i [ch 'A', ch '3']) .reset) = some ⟨.ok, .signed 103⟩ := by decide
/-- N2. -/
theorem test_scanstart : look (fun t => (t.scanState, t.scanRemaining, t.flags)) (exec (.scanstart 1000) .reset) =
    some (.stepping, 3, 0x100) := by decide
/-- N10. -/
theorem test_scanstart_cooldown :
    answer (exec (.scanstart 74899) { State.reset with passDone := true, passEndTime := 14900 }) =
      some ⟨.busy, .empty⟩ ∧
    answer (exec (.scanstart 74900) { State.reset with passDone := true, passEndTime := 14900 }) =
      some ⟨.ok, .empty⟩ := by decide
/-- N4. -/
theorem test_scantick_stepping : look (fun t => (t.msgBuf, t.txCompare, t.scanRemaining, t.responses))
    (exec (.scantick 1100) { State.reset with scanState := .stepping, scanRemaining := 3 }) =
    some (k21, 22000, 2, [⟨.ok, .scanOut true false false⟩]) := by decide
/-- N8. -/
theorem test_scantick_capture : look (fun t => (t.props.head?, t.scanIndex, t.scanState))
    (exec (.scantick 1501) { showing 0xDA 0x66 0x10 with scanState := .awaitingValue, labelSeenAt := 1200 }) =
    some (some 24, 1, .awaitingLabel) := by decide
/-- N12. -/
theorem test_propsnap : (answer (exec .propsnap .reset)).map (fun r => match r.result with
    | .properties ps => (ps.length, ps.head?)
    | _ => (0, none)) = some (27, some ([ch 'T', ch '1'], 0)) := by decide
/-- R68's example: the edge that completes the sync. -/
theorem test_rxedge_sync : look (fun t => (t.rxState, t.preambleIdx, t.edgeCount, t.ring.getD 2 0))
    (exec (.rxedge 11350) tinyRing) = some (.message, 1, 2, 450) := by decide
/-- P1: the edge that completes the message. -/
theorem test_rxedge_threshold : look (fun t => (t.listening, t.received, t.edgeCount))
    (exec (.rxedge 12078) { tinyPending with listening := true, received := false, edgeCount := 10, wrIdx := 11 }) =
    some (false, true, 11) := by decide
/-- T11. -/
theorem test_txcmp : look (fun t => (t.txPin, t.txCompare, t.txIdx)) (exec .txcmp tinySending) =
    some (false, 450, 1) := by decide
/-- T14: the last event releases a waiting host. -/
theorem test_txcmp_end : look (fun t => (t.txActive, t.hostBlocked, t.responses))
    (exec .txcmp { tinySending with txIdx := 11, hostBlocked := true }) = some (false, false, [⟨.ok, .empty⟩]) := by
  decide
/-- V2: the last bit of 0xDA. -/
theorem test_dclk : look (fun t => (t.dRaw.b0, t.dBytePos, t.dByte))
    (exec (.dclk true) { State.reset with dListening := true, dBitPos := 7, dByte := 0x5A }) =
    some (0xDA, 1, 0) := by decide
/-- V4. -/
theorem test_dclk_complete : look id (exec (.dclk true) { State.reset with dListening := true, dBytePos := 3 }) =
    some { State.reset with dListening := true, dBytePos := 3 } := by decide +kernel
/-- R105. -/
theorem test_dstb : look (fun t => (t.dBitPos, t.dBytePos, t.dByte))
    (exec .dstb { State.reset with dListening := true, dBitPos := 5, dBytePos := 1, dByte := 0x1F }) =
    some (0, 0, 0) := by decide
/-- P2: the first transitions of `g`. -/
theorem test_msgCommand : look (·.inbox.take 4) (exec (.msgCommand g 100000) .reset) =
    some ([100000, 104400, 108800, 109360].map fun n => Request.event (0 :: le n)) := by decide
theorem test_msgOption : look (·.inbox.length) (exec (.msgOption k21 0) .reset) = some 200 := by decide +kernel
theorem test_msgFollowme : look (·.inbox.head?) (exec (.msgFollowme k27 7) .reset) =
    some (some (.event [0, 7, 0, 0, 0])) := by decide

/-! ### The step -/

theorem test_step_fetches : look (·.listening) (step (State.reset.withFetchWord 8 0x22)) = some true := by
  decide
/-- R122. -/
theorem test_step_illegal : answer (step { State.reset with inbox := [.command [0x03]] }) =
    some ⟨.illegalOp, .empty⟩ := by decide
/-- notes/assumptions/17.md. -/
theorem test_step_truncated : stopped (step { State.reset with inbox := [.command [0x02]] }) =
    some .truncatedBundle := by decide
/-- notes/assumptions/1.md. -/
theorem test_step_quiet : look id (step State.reset) = some State.reset := by decide +kernel
/-- R43, R62. -/
theorem test_step_unknown_kind : look (·.inbox.length) (step { State.reset with
    inbox := [.wire (k10a ++ [0, 0, 0, 0])] }) = some 200 := by decide +kernel
/-- R32. -/
theorem test_step_split_hasupd : look (·.hasupd) (step { State.reset with
    cfg := { Configuration.refHp with hasupdAtomic := false }, hasupd := .read0 0xDA, dRaw := ⟨0, 0x66, 0⟩ }) =
    some (.read1 0xDA 0x66) := by decide

/-! ### Witnesses: a state and operands that meet the hypotheses of each statement

The theorem `test_witness_<Name>` belongs to `Obligations.<Name>`; its parts are that statement's hypotheses on concrete
values, clause by clause, at boundary values where a clause has a range. -/

/-- A heat-pump block that receives an interval for the periodic scan. -/
def periodic : State := { State.reset with cfg := { Configuration.refHp with scanInterval := some 100 } }

/-- A transmitting REF_HP block. -/
def hpSending : State := State.reset.startTransmission g

/-- A block whose HASUPD is split. -/
def splitting : State := { State.reset with
  cfg := { Configuration.refHp with hasupdAtomic := false }, dReady := true, dRaw := ⟨0xDB, 0x66, 0x11⟩
  inbox := [.command [0x62], .command [0x00]] }

theorem test_refHp_wellFormed : wellFormedConfig .refHp = true := by decide +kernel
theorem test_tiny_wellFormed : wellFormedConfig tiny = true := by decide +kernel

theorem test_witness_DecodeEncodeAgree : (Instr.msgFollowme k27 3).wellFormed .refHp = true ∧
    (Instr.reset .refHp).wellFormed tiny = true ∧ (Instr.fmcmd g none (-2 ^ 31)).wellFormed .refHp = true ∧
    (Instr.setTemp (2 ^ 31 - 1)).wellFormed .refHp = true ∧ (Instr.a2i [48, 48, 48, 48]).wellFormed .refHp = true := by
  decide +kernel

theorem test_witness_DecodedOperationsAreWellFormed :
    decode tiny (.command [0x44, 0x77, 0x02, 0xFF, 0xFF, 0xFF, 0xFF]) = .instr (.fmcmd [0x77] (some .stop) (-1)) := by
  decide

/-- A free host's command, and events to a host held by SEND.W and by HASUPD; an empty inbox; a HASUPD in progress with
nothing and with a command offered; a host turn; a command and an event that end too early; a message of no known kind. -/
theorem test_witness_StepRunsTheDecodedOperation :
    (let s := { State.reset with inbox := [.command [0x22]] }
     s.inbox = .command [0x22] :: [] ∧ decode s.cfg (.command [0x22]) = .instr .listen ∧ s.hostFree) ∧
    (let s := { tinySending with hostBlocked := true, inbox := [.event [1], .command [0]] }
     s.inbox = .event [1] :: [.command [0]] ∧ decode s.cfg (.event [1]) = .instr .txcmp ∧
       portOf .txcmp ≠ .command) ∧
    (let s := { splitting with hasupd := .cleared, inbox := [.event [3]] }
     s.inbox = .event [3] :: [] ∧ decode s.cfg (.event [3]) = .instr .dstb ∧ portOf .dstb ≠ .command) ∧
    (State.reset.inbox = [] ∧ State.reset.hasupd = .idle) ∧
    ({ splitting with hasupd := .cleared, inbox := [] }.inbox = [] ∧
     { splitting with hasupd := .read0 1 }.inbox = .command [0x62] :: [.command [0x00]] ∧
     { splitting with hasupd := .read0 1 }.hasupd ≠ .idle ∧
     { splitting with inbox := [.turn] }.inbox = .turn :: []) ∧
    (decode State.reset.cfg (.command [0x02]) = .rejected .truncated ∧ State.reset.hostFree ∧
     decode tinySending.cfg (.event []) = .rejected .truncated ∧ isCommand (.event []) = false) ∧
    (k10a ++ putWord 7 ++ [9] = [0xA8, 0x00, 0x00, 0x00, 0x00, 0xEA, 0x57, 0xFF, 0xFF, 0xFF, 0xFF, 0x19, 7, 0, 0, 0, 9] ∧
     k10a.length = Configuration.refHp.msgLen ∧ wireKind .refHp k10a = none) :=
  ⟨⟨rfl, rfl, rfl, rfl⟩, ⟨rfl, rfl, by decide⟩, ⟨rfl, rfl, by decide⟩, ⟨rfl, rfl⟩, ⟨rfl, rfl, by simp, rfl⟩,
    ⟨rfl, ⟨rfl, rfl⟩, rfl, rfl⟩, by decide⟩

theorem test_witness_BlockedHostIssuesNoCommand :
    (let s := { tinySending with hostBlocked := true, inbox := [.command [0], .command [0x22]] }
     s.hostBlocked = true ∧ s.hasupd = .idle ∧ s.inbox = [[0], [0x22]].map Request.command) ∧
    (let s := { tinySending with hostBlocked := true, inbox := [.command [0], .event [1], .command [0x22]] }
     s.hostBlocked = true ∧ s.hasupd = .idle ∧
       s.inbox = [[0]].map Request.command ++ .event [1] :: [.command [0x22]] ∧ isCommand (.event [1]) = false) :=
  ⟨⟨rfl, rfl, rfl⟩, rfl, rfl, rfl, rfl⟩

/-- Both ends of each range of codes. -/
theorem test_witness_UnassignedCodesAreIllegal :
    (∀ op ∈ ([0x03, 0x06, 0x1F, 0x25, 0x3F, 0x58, 0x5F, 0x65, 0x7F, 0x83, 0xFF] : List Byte),
      (op.toNat = 0x03 ∨ (0x06 ≤ op.toNat ∧ op.toNat ≤ 0x1F) ∨ (0x25 ≤ op.toNat ∧ op.toNat ≤ 0x3F) ∨
        (0x58 ≤ op.toNat ∧ op.toNat ≤ 0x5F) ∨ (0x65 ≤ op.toNat ∧ op.toNat ≤ 0x7F) ∨ 0x83 ≤ op.toNat)) ∧
    (let s := { State.reset with inbox := [.command [0x83, 1]] }
     s.hostFree ∧ s.inbox = .command (0x83 :: [1]) :: []) :=
  ⟨by decide, ⟨rfl, rfl⟩, rfl⟩

/-- A block of TINY right after its construction meets the invariant, and its step is a next state. -/
theorem test_witness_EveryStepKeepsTheInvariant : tinyState.Inv ∧ ∃ t, step tinyState = .next t :=
  ⟨{ config := test_tiny_wellFormed, configFits := by decide +kernel, ringLen := by decide, wrIdxLt := by decide
     preambleLt := by decide, msgBufLen := by decide, tableLen := by decide, txIdxLe := by decide
     txIdxLt := by decide, blocked := by decide, receiver := ⟨rfl, rfl, rfl⟩, cmLen := by decide
     marker := fun h => (by cases h), shadow := by decide, sampler := by decide, frameDone := by decide
     scanner := ⟨by decide, rfl⟩, propsLen := by decide, hasupdSplit := by decide }, _, rfl⟩

theorem test_witness_RunningTableAndDescriptorStay : (∀ c, Instr.txcmp ≠ .reset c) ∧
    (∃ t, exec .txcmp tinySending = .next t) ∧ tinySending.txActive = true :=
  ⟨fun _ => by simp, ⟨_, rfl⟩, rfl⟩

theorem test_witness_OnlyTheCodecWritesTheCodec : (∃ t, exec (.optcmd 2) .reset = .next t) ∧
    writesMessage (.optcmd 2) = false ∧ (∃ t, exec .getmsg .reset = .next t) ∧ adoptsMessage .getmsg = false :=
  ⟨⟨_, rfl⟩, rfl, ⟨_, rfl⟩, rfl⟩

theorem test_witness_DisabledEventsChangeNothing : State.reset.listening = false ∧ State.reset.txActive = false ∧
    State.reset.dListening = false := ⟨rfl, rfl, rfl⟩

/-- Both variants well-formed; `RING_CAP = N`, and a ring just above. The other constraints of R5 are the two theorems
below. -/
theorem test_witness_ResetConstructsTheBlock : wellFormedConfig .refHp = true ∧ wellFormedConfig tiny = true ∧
    Configuration.refHp.variant = .heatPump ∧
    wellFormedConfig { Configuration.refHp with bitCount := 44 } = false ∧
    (let c := { tiny with ringCap := 12 }; c.ringCap ≤ c.sampleCount * (2 * (c.bitCount + c.brk) + c.syncCount)) ∧
    wellFormedConfig { tiny with ringCap := 13 } = true ∧
    (let c := { tiny with breakWindow := ⟨0, 0, 0⟩, ringCap := 11 }
     c.ringCap ≤ c.bitCount * 2 * c.sampleCount + c.syncCount + 1) ∧
    (let c := { tiny with ringCap := 1 }; c.ringCap < c.syncCount) := by decide +kernel

/-- The constraints of the descriptor and the display, missed by the least amount: ε of 0 and of 1, counts of 0, one sync
window of two, no tick, 1073741824 µs of 4 ticks, a window with another bound, two windows that meet in one duration, odd
codes, texts too short and too long, 26 labels and a label of three characters. -/
theorem test_witness_ResetConstructsTheBlock_descriptor :
    let c := Configuration.refHp
    ({ c with epsNum := 0 }.epsNum = 0 ∧ { c with epsNum := 4 }.epsDen ≤ 4) ∧
    ({ c with sampleCount := 0 }.sampleCount = 0 ∧ { c with bitCount := 0 }.bitCount = 0 ∧
      { c with syncCount := 0 }.syncCount = 0 ∧ { c with syncCount := 1 }.syncWindows.length ≠ 1) ∧
    ({ c with ticksPerUs := 0 }.ticksPerUs = 0 ∧ 2 ^ 32 ≤ (1073741824 : Word).toNat * 4) ∧
    mkWindow 560 c.epsNum c.epsDen ≠ some ⟨560, 420, 701⟩ ∧
    (InWindow c.zeroWindow 700 ∧ InWindow ⟨933, 700, 1167⟩ 700) ∧
    (0 < c.breakWindow.nominal.toNat ∧ InWindow c.breakWindow 3915 ∧ InWindow ⟨3132, 2349, 3915⟩ 3915) ∧
    ((0x01 : Byte).getLsbD 0 = true ∧ ([] : List Ch).length ∉ [1, 2] ∧ [ch '1', ch '2', ch '3'].length ∉ [1, 2] ∧
      (c.labels.drop 1).length ≠ 27 ∧ 2 < [ch 'T', ch '1', ch '2'].length) := by
  refine ⟨by decide, by decide, by decide, by decide +kernel, ?_, ?_, by decide +kernel⟩ <;>
    simp [InWindow, Configuration.refHp]

/-- The constraints of a heat-pump record, missed by the least amount: one sample, 44 bits (vector Y3) and 8, a mask of five
bits and equal masks, a field one bit too low and one too high, two fields that share a bit, equal codes, a temperature code
of -1 and the first too great, an empty option set, an option too great for its field, the option 9 (vector Y3). -/
theorem test_witness_ResetConstructsTheBlock_heatPump :
    let c := Configuration.refHp
    let apart := fun (f g : Field) => f.start + f.width ≤ g.start ∨ g.start + g.width ≤ f.start
    c.variant = .heatPump ∧
    ({ c with sampleCount := 1 }.sampleCount ≠ 2 ∧ { c with bitCount := 44 }.bitCount % 8 ≠ 0 ∧
      { c with bitCount := 8 }.bitCount < 16) ∧
    ((0x1F : Byte) ∉ ([0xF0, 0x0F] : List Byte) ∧ c.markerMask = { c with kindMask := 0xF0 }.kindMask) ∧
    ((⟨7, 1⟩ : Field).start < 8 ∧ 8 * c.payloadBytes < (⟨33, 8⟩ : Field).start + (⟨33, 8⟩ : Field).width) ∧
    (¬ apart c.fieldMap.temp ⟨23, 2⟩ ∧
      ¬ (commandFields { c.fieldMap with fmState := ⟨23, 2⟩ } ++ [⟨23, 2⟩, c.fieldMap.fmTemp]).Pairwise apart) ∧
    (let e := { c with modeCode := ⟨0, 1, 2, 3, 3⟩, fanCode := ⟨0, 0, 2, 3⟩, fmStateCode := ⟨1, 2, 1⟩ }
     modeCodeOf e .heat = modeCodeOf e .fan ∧ fanCodeOf e .auto = fanCodeOf e .low ∧
       fmStateCodeOf e .start = fmStateCodeOf e .stop) ∧
    (16 - c.tempOffset = -1 ∧ -1 - c.fmTempOffset = -1 ∧ (2 : Int) ^ c.fieldMap.temp.width = 49 - c.tempOffset ∧
      (2 : Int) ^ c.fieldMap.fmTemp.width = 256 - c.fmTempOffset) ∧
    ({ c with optionSet := [] }.optionSet = [] ∧ 2 ^ (⟨8, 2⟩ : Field).width ≤ (4 : Byte).toNat ∧
      (9 : Byte) ∉ c.optionSet) := by decide +kernel

theorem test_witness_WindowsContainTheirNominal : 0 < 1 ∧ 1 < 4 ∧ 1 ≤ (1 : Word).toNat ∧
    mkWindow 1 1 4 = some ⟨1, 0, 2⟩ := by decide

theorem test_witness_MessageBitsHaveTheirPlaces : 95 / 8 < g.length := by decide

/-- A field that ends at the end of the buffer, written with its greatest value. -/
theorem test_witness_FieldsReadAndWriteTheirBits :
    (let f : Field := ⟨91, 5⟩; f.start + f.width ≤ 8 * g.length ∧ 31 < 2 ^ f.width) ∧ 0 < 5 ∧ 95 < 91 + 5 := by decide

theorem test_witness_PulseTableFollowsTheSlots :
    1 < Configuration.refHp.sampleCount ∧ 1 < Configuration.refHp.syncCount ∧
    48 < Configuration.refHp.bitCount + Configuration.refHp.brk ∧ 47 < Configuration.refHp.bitCount ∧
    Configuration.refHp.brk = 1 := by decide

theorem test_witness_SendStartsATransmission : tinySending.txActive = true ∧ tinyState.txActive = false ∧
    ([0xAF] : List Byte).length = tinyState.cfg.msgLen := ⟨rfl, rfl, by decide⟩

/-- The last entry but one, and the last. -/
theorem test_witness_TxcmpWalksTheTable :
    (let s := { tinySending with txIdx := 10 }; s.txActive = true ∧ s.txIdx + 1 < s.cfg.tableLen) ∧
    (let s := { tinySending with txIdx := 11, hostBlocked := true }
     s.txActive = true ∧ s.cfg.tableLen ≤ s.txIdx + 1) := by decide

theorem test_witness_TransmissionMakesNTransitions : tinyState.txActive = false ∧ tinyState.hostBlocked = false ∧
    1 ≤ tinyState.cfg.tableLen ∧ (∃ u, exec (.send [0xA0]) tinyState = .next u) ∧
    ∃ u, exec (.sendW [0xA0]) tinyState = .next u := ⟨rfl, rfl, by decide, ⟨_, rfl⟩, _, rfl⟩

/-- Detached; pending; a sync; no sync; a message edge that is not the last, one that is, and one with a sync. -/
theorem test_witness_RxedgeRunsTheReceiver :
    let ring := fun (s : State) (now : Word) => s.ring.set (s.wrIdx % s.cfg.ringCap) (now - s.lastEdgeTime)
    let sync := fun (s : State) (now : Word) => ∀ k < s.cfg.syncCount,
      inWin (s.cfg.syncWindows.getD k ⟨0, 0, 0⟩) ((ring s now).getD
        (((s.wrIdx + 1) % s.cfg.ringCap + s.cfg.ringCap - s.cfg.syncCount + k) % s.cfg.ringCap) 0) = true
    let past := fun (s : State) =>
      s.cfg.bitCount * 2 * s.cfg.sampleCount + s.cfg.syncCount < (s.edgeCount + 1).toNat
    let pre := tinyRing
    let mid := { tinyPending with listening := true, received := false, edgeCount := 9, wrIdx := 10 }
    let last := { mid with edgeCount := 10 }
    let again := { tinyRing with rxState := .message, edgeCount := 2 }
    tinyState.listening = false ∧ tinyPending.received = true ∧
    (pre.listening = true ∧ pre.received = false ∧ pre.rxState = .preamble) ∧ sync pre 11350 ∧ ¬ sync pre 11500 ∧
    (mid.listening = true ∧ mid.received = false ∧ mid.rxState = .message) ∧ ¬ past mid ∧ ¬ sync mid 12135 ∧
    (last.listening = true ∧ last.received = false ∧ last.rxState = .message) ∧ past last ∧
    (again.listening = true ∧ again.received = false ∧ again.rxState = .message) ∧ sync again 11350 := by decide

/-- No message and one; a duration of each kind at an end of its window: a zero, a one, a boundary by the break and by the
second sync window, and 300, in no window, under each policy. -/
theorem test_witness_ChkmsgDrainsTheMessage : tinyState.received = false ∧ tinyPending.received = true ∧
    (let c := Configuration.refHp
     InWindow c.zeroWindow 420 ∧ InWindow c.oneWindow 2100 ∧ ¬ InWindow c.zeroWindow 2100 ∧
     (c.brk = 1 ∧ InWindow c.breakWindow 6525) ∧ ¬ InWindow c.zeroWindow 6525 ∧ ¬ InWindow c.oneWindow 6525 ∧
     (∃ w ∈ c.syncWindows, InWindow w 3300) ∧ ¬ InWindow c.zeroWindow 3300 ∧ ¬ InWindow c.oneWindow 3300 ∧
     ¬ InWindow c.zeroWindow 300 ∧ ¬ InWindow c.oneWindow 300 ∧
     ¬ ((c.brk = 1 ∧ InWindow c.breakWindow 300) ∨ ∃ w ∈ c.syncWindows, InWindow w 300) ∧
     c.malformedPolicy = .abort ∧ { c with malformedPolicy := .restartCount }.malformedPolicy = .restartCount) :=
  ⟨rfl, rfl, by simp [InWindow, Configuration.refHp, Configuration.brk]⟩

theorem test_witness_SecondPollAnswersNone : ∃ t, exec .chkmsg tinyPending = .next t := ⟨_, rfl⟩

theorem test_witness_WalkDecodesTheTransmittedSample : wellFormedConfig .refHp = true ∧
    Configuration.refHp.brk = 1 ∧ wellFormedConfig tiny = true ∧ tiny.brk = 1 := by decide +kernel

/-- A walk that ends; one good duration of each kind and one of 300, in no window. -/
theorem test_witness_MalformedDurationAborts :
    (walk .refHp [420, 6525] 0 []).1 ≠ .exhausted ∧
    [420, 2100].length < Configuration.refHp.sampleCount * Configuration.refHp.bitCount ∧
    Configuration.refHp.malformedPolicy = .abort ∧
    (∀ x ∈ ([420, 2100] : List Word),
      InWindow Configuration.refHp.zeroWindow x ∨ InWindow Configuration.refHp.oneWindow x) ∧
    ¬ InWindow Configuration.refHp.zeroWindow 300 ∧ ¬ InWindow Configuration.refHp.oneWindow 300 ∧
    (Configuration.refHp.brk = 1 → ¬ InWindow Configuration.refHp.breakWindow 300) ∧
    ∀ w ∈ Configuration.refHp.syncWindows, ¬ InWindow w 300 := by
  refine ⟨by decide, by decide, rfl, ?_, ?_⟩
  · intro x hx
    simp only [List.mem_cons, List.not_mem_nil, or_false] at hx
    rcases hx with rfl | rfl <;> simp [InWindow, Configuration.refHp]
  · simp [InWindow, Configuration.refHp]

theorem test_witness_BuiltMessageHasTwoSamples : Configuration.refHp.checksum = .ref ∧ wellFormedConfig .refHp = true ∧
    Configuration.refHp.variant = .heatPump ∧ (g.take 5).length = Configuration.refHp.payloadBytes := by
  decide +kernel

theorem test_witness_GenericCodecIsIllegal : isCodecOp .getseq = true ∧ tinyState.cfg.variant = .generic := ⟨rfl, rfl⟩

/-- A buffer whose sample 0 is good, one with only sample 1 good, one with neither (its marker good and its marker
wrong), one with both and one of an unknown kind, for both operations. -/
theorem test_witness_IsvalidAdoptsAValidBuffer :
    let good := fun (x : List Byte) (k : Nat) =>
      ((if k = 0 then pay .refHp x 0 else (pay .refHp x k).map (~~~ ·)).headD 0 &&& Configuration.refHp.markerMask =
        Configuration.refHp.markerValue) ∧ checksum .refHp (pay .refHp x k) = cs .refHp x k
    let stamped := fun (x : List Byte) =>
      x.set Configuration.refHp.payloadBytes (checksum .refHp (pay .refHp x 0))
    State.reset.isHeatPump ∧ good g 0 ∧ good k10a 0 ∧ (¬ good (g.set 5 0) 0 ∧ good (g.set 5 0) 1) ∧
    (¬ good (g.take 5 ++ List.replicate 7 0) 0 ∧ ¬ good (g.take 5 ++ List.replicate 7 0) 1) ∧
    (¬ good (List.replicate 12 0) 0 ∧ ¬ good (List.replicate 12 0) 1) ∧
    good (stamped (g.set 5 0)) 0 ∧ (¬ good (stamped (g.set 0 0x51)) 0 ∧ good (stamped (g.set 0 0x51)) 1) ∧
    (¬ good (stamped (List.replicate 12 0)) 0 ∧ ¬ good (stamped (List.replicate 12 0)) 1) :=
  ⟨rfl, by decide +kernel⟩

theorem test_witness_heatPump : State.reset.isHeatPump := rfl

/-- A recognised and an unrecognised message adopted. -/
theorem test_witness_NormalisedMessageValidatesAgain :
    wellFormedConfig State.reset.cfg = true ∧ State.reset.isHeatPump ∧ g.length = State.reset.cfg.msgLen ∧
    (∃ u, exec (.isvalid g 500) .reset = .next u ∧ u.responses = State.reset.responses ++ [⟨.ok, .buffer g⟩]) ∧
    k10a.length = State.reset.cfg.msgLen ∧
    ∃ u, exec (.isvalid k10a 500) .reset = .next u ∧
      u.responses = State.reset.responses ++ [⟨.unsupportedInstruction, .buffer k10a⟩] :=
  ⟨test_refHp_wellFormed, rfl, by decide, ⟨_, rfl, by decide +kernel⟩, by decide, _, rfl, by decide +kernel⟩

/-- Each of the three kinds, and a kind that is none; with one code for Option and FollowMe, Option alone is the first. -/
theorem test_witness_CodecReadsAnswer : State.reset.isHeatPump ∧
    kindCode .refHp (pay .refHp (owning g).cm 0) = kindValue .refHp .command ∧
    kindCode .refHp (pay .refHp (owning k21).cm 0) = kindValue .refHp .option ∧
    kindCode .refHp (pay .refHp (owning k27).cm 0) = kindValue .refHp .followMe ∧
    (∀ k : Kind, ∀ k' ∈ [Kind.command, .option, .followMe].takeWhile (· ≠ k),
      kindValue .refHp k' ≠ kindValue .refHp k) ∧
    (let c := { Configuration.refHp with kindFollowMe := 2 }
     kindCode c (pay c k21 0) = kindValue c .option ∧ kindValue c .command ≠ kindValue c .option) ∧
    ∀ k ∈ [Kind.command, .option, .followMe], kindCode .refHp (pay .refHp (owning k10a).cm 0) ≠ kindValue .refHp k :=
  ⟨rfl, by decide, by decide, by decide, fun k => by cases k <;> decide, by decide, by decide⟩

/-- One-bit fields; in a record with two-bit ones both values and a code that is none. -/
theorem test_witness_BitGettersReadTheirField :
    let wide := { Configuration.refHp with fieldMap.power := ⟨34, 2⟩, fieldMap.sleep := ⟨36, 2⟩ }
    (owning g).isHeatPump ∧ (owning g).hasKind [.command, .followMe] = true ∧
    (owning k27).hasKind [.command, .followMe] = true ∧ Configuration.refHp.fieldMap.power.width = 1 ∧
    getField g Configuration.refHp.fieldMap.power = true.toNat ∧
    getField g Configuration.refHp.fieldMap.sleep = false.toNat ∧
    wide.variant = .heatPump ∧ 2 ≤ getField (g.set 4 0x20) wide.fieldMap.power ∧
    2 ≤ getField (g.set 4 0x0C) wide.fieldMap.sleep := ⟨rfl, by decide⟩

/-- A code that is a value and a code that is none, for each of the three fields; the fan codes are all taken in REF_HP,
so a record with a wider fan field shows the last case. -/
theorem test_witness_EnumGettersDecodeTheirField :
    let wide := { Configuration.refHp with fieldMap.temp := ⟨20, 4⟩, fieldMap.fan := ⟨13, 3⟩ }
    wellFormedConfig .refHp = true ∧ wellFormedConfig wide = true ∧ wide.variant = .heatPump ∧
    (owning g).hasKind [.command, .followMe] = true ∧ (owning k27).hasKind [.followMe] = true ∧
    modeCodeOf .refHp .cool = getField g Configuration.refHp.fieldMap.mode ∧
    (∀ m ∈ [Mode.auto, .cool, .dry, .heat, .fan],
      modeCodeOf .refHp m ≠ getField (g.set 1 0xA8) Configuration.refHp.fieldMap.mode) ∧
    fanCodeOf .refHp .low = getField g Configuration.refHp.fieldMap.fan ∧
    (∀ f ∈ [Fan.auto, .low, .medium, .high], fanCodeOf wide f ≠ getField (g.set 1 0x8F) wide.fieldMap.fan) ∧
    fmStateCodeOf .refHp .update = getField k27 Configuration.refHp.fieldMap.fmState ∧
    ∀ x ∈ [FmState.start, .update, .stop],
      fmStateCodeOf .refHp x ≠ getField (k27.set 3 0) Configuration.refHp.fieldMap.fmState := by decide +kernel

/-- An option of the set, and a code outside it. -/
theorem test_witness_ValueGettersDecodeTheirField : State.reset.isHeatPump ∧
    (owning g).hasKind [.command, .followMe] = true ∧ (owning k27).hasKind [.followMe] = true ∧
    (owning k21).hasKind [.option] = true ∧ (2 : Byte) ∈ Configuration.refHp.optionSet ∧
    (2 : Byte).toNat = getField k21 Configuration.refHp.fieldMap.option ∧
    (owning (k21.set 1 9)).hasKind [.option] = true ∧ (∀ o ∈ Configuration.refHp.optionSet,
      o.toNat ≠ getField (k21.set 1 9) Configuration.refHp.fieldMap.option) :=
  ⟨rfl, by decide⟩

theorem test_witness_WrongKindIsInvalidField : State.reset.isHeatPump ∧
    (owning k21).hasKind [.command, .followMe] = false ∧ (owning g).hasKind [.option] = false ∧
    (owning g).hasKind [.followMe] = false ∧ (owning k10a).hasKind [.followMe] = false := ⟨rfl, by decide⟩

/-- For PowerAndSleepSettersWrite, ModeAndFanSettersWrite, TemperatureSettersWrite and OptionAndStateSettersWrite: a
message of each kind, and a Command in mode Fan, in mode Dry and without power. -/
theorem test_witness_setters : State.reset.isHeatPump ∧ (owning g).hasKind [.command, .followMe] = true ∧
    (owning k27).hasKind [.followMe] = true ∧ (owning k21).hasKind [.option] = true ∧
    (owning (g.set 1 0xA0)).mode? = some .fan ∧ (owning (g.set 1 0x90)).mode? = some .dry ∧
    getField (g.set 1 0x0A) Configuration.refHp.fieldMap.power = 0 := ⟨rfl, by decide⟩

/-- A message with sleep set, in mode Cool. -/
theorem test_witness_SettersKeepTheCrossFieldInvariants :
    let s := owning (g.set 1 0xCA)
    wellFormedConfig s.cfg = true ∧ s.isHeatPump ∧ s.cm.length = s.cfg.msgLen ∧
    s.hasKind [.command, .followMe] = true ∧ s.hasKind [.option] = false ∧ s.field (·.power) ≤ 1 ∧ s.crossFieldOk ∧
    writesMessage (.setMode (some .dry)) = true ∧
    (∀ b now, Instr.setMode (some .dry) ≠ .isvalid b now) ∧ (∀ b now, Instr.setMode (some .dry) ≠ .isvalidS b now) ∧
    (∀ c, Instr.setMode (some .dry) ≠ .reset c) ∧ ∃ t, exec (.setMode (some .dry)) s = .next t :=
  ⟨test_refHp_wellFormed, rfl, by decide, by decide, by decide, by decide, ⟨by decide, by decide⟩, rfl, by simp, by simp, by simp, _, rfl⟩

/-- The two failures; a good sample 0 and a good sample 1; a snapshot of each kind; both ends of the range and a
temperature past each. -/
theorem test_witness_FmcmdMutatesASnapshot :
    let c := Configuration.refHp
    wellFormedConfig c = true ∧ c.variant = .heatPump ∧ g.length = c.msgLen ∧
    (check c (List.replicate 12 0) 0 = .invalidMarker ∧ check c (List.replicate 12 0) 1 ≠ .good) ∧
    (check c (g.take 5 ++ List.replicate 7 0) 0 = .checksumMismatch ∧
      check c (g.take 5 ++ List.replicate 7 0) 1 ≠ .good) ∧
    check c g 0 = .good ∧ (check c (g.set 5 0) 0 ≠ .good ∧ check c (g.set 5 0) 1 = .good) ∧
    kindCode c (pay c g 0) ∈ [c.kindCommand, c.kindFollowMe] ∧
    kindCode c (pay c k27 0) ∈ [c.kindCommand, c.kindFollowMe] ∧
    check c k21 0 = .good ∧ kindCode c (pay c k21 0) ∉ [c.kindCommand, c.kindFollowMe] ∧
    (-1 : Int) < c.fmTempMin ∧ c.fmTempMax < 51 ∧ c.fmTempMin ≤ 0 ∧ (50 : Int) ≤ c.fmTempMax := by decide +kernel

theorem test_witness_FactoryOutputsAreValid : wellFormedConfig State.reset.cfg = true ∧ State.reset.isHeatPump ∧
    instructionByteFits State.reset.cfg ∧
    (∃ t, exec (.optcmd 2) .reset = .next t ∧ t.responses = State.reset.responses ++ [⟨.ok, .buffer k21⟩]) ∧
    ∃ t, exec (.fmcmd g (some .update) 23) .reset = .next t ∧
      t.responses = State.reset.responses ++ [⟨.ok, .buffer k27⟩] :=
  ⟨test_refHp_wellFormed, rfl, ⟨by decide, by decide⟩, ⟨_, rfl, by decide +kernel⟩, _, rfl, by decide +kernel⟩

/-- Detached; a complete frame; a bit inside a byte (first and last but one); the last bit of each byte. -/
theorem test_witness_ClockSamplesAndStrobeRealigns :
    let on := { State.reset with dListening := true }
    State.reset.dListening = false ∧ { on with dBytePos := 3 }.dBytePos = 3 ∧
    (on.dListening = true ∧ on.dBytePos ≠ 3 ∧ on.dBitPos ≠ 7) ∧ { on with dBitPos := 6 }.dBitPos ≠ 7 ∧
    (let last := { on with dBitPos := 7 }
     last.dListening = true ∧ last.dBitPos = 7 ∧ last.dBytePos = 0 ∧ { last with dBytePos := 1 }.dBytePos = 1 ∧
       { last with dBytePos := 2 }.dBytePos = 2) := by decide

theorem test_witness_FrameIsReassembled : { State.reset with dListening := true }.dListening = true := rfl

/-- Nothing ready; a new frame; the same frame; a blank first and a blank second digit. -/
theorem test_witness_HasupdJudgesTheFrame :
    State.reset.hasupd = .idle ∧ State.reset.cfg.hasupdAtomic = true ∧ State.reset.dReady = false ∧
    { State.reset with dReady := true }.dReady = true ∧
    (⟨0xDB &&& 0xFE, 0x66 &&& 0xFE, 0x11 &&& 0xFE⟩ : Frame) ≠ State.reset.dShadow ∧
    (0xDB : Byte) &&& 0xFE ≠ Configuration.refHp.blankCode ∧ (0x66 : Byte) &&& 0xFE ≠ Configuration.refHp.blankCode ∧
    (⟨0xDB &&& 0xFE, 0x66 &&& 0xFE, 0x11 &&& 0xFE⟩ : Frame) = (showing 0xDA 0x66 0x10).dShadow ∧
    (0x01 : Byte) &&& 0xFE = Configuration.refHp.blankCode := by decide

/-- Each phase, idle with a frame and with none; a new frame, the frame shown and a frame that is blank. -/
theorem test_witness_SplitHasupdReadsByteByByte :
    (splitting.hasupd = .idle ∧ splitting.cfg.hasupdAtomic = false ∧ { splitting with dReady := false }.dReady = false) ∧
    { splitting with hasupd := .cleared }.hasupd = .cleared ∧
    { splitting with hasupd := .read0 0xDB }.hasupd = .read0 0xDB ∧
    (let s := { splitting with hasupd := .read1 0xDB 0x66 }
     let f : Frame := ⟨0xDB &&& 0xFE, 0x66 &&& 0xFE, s.dRaw.b2 &&& 0xFE⟩
     s.hasupd = .read1 0xDB 0x66 ∧ f ≠ s.dShadow ∧ f.b0 ≠ s.cfg.blankCode ∧ f.b1 ≠ s.cfg.blankCode ∧
     f = { s with dShadow := ⟨0xDA, 0x66, 0x10⟩ }.dShadow ∧ (0x01 : Byte) &&& 0xFE = s.cfg.blankCode) ∧
    splitting.hostBlocked = false ∧ splitting.dReady = true ∧
    splitting.inbox = .command (0x62 :: []) :: [.command [0x00]] ∧
    ∀ r ∈ ([.command [0x00]] : List Request).head?, isCommand r = true :=
  ⟨⟨rfl, rfl, rfl⟩, rfl, rfl, by decide, rfl, rfl, rfl, by decide⟩

theorem test_witness_AlphaToIntWeighsByTen : ([70, 70, 70, 70] : List Ch).length ≤ 4 := by decide

/-- A pass under way; one tick before the end of the cool-down and at it; no pass yet. -/
theorem test_witness_ScanstartEntersAPass :
    let done := { State.reset with passDone := true, passEndTime := 14900 }
    State.reset.isHeatPump ∧ { State.reset with scanState := .stepping }.scanState ≠ .idle ∧
    (done.passDone = true ∧ ((74899 : Word) - done.passEndTime).toNat < done.cfg.cooldown.toNat) ∧
    (done.scanState = .idle ∧ done.cfg.cooldown.toNat ≤ ((74900 : Word) - done.passEndTime).toNat) ∧
    State.reset.passDone = false := ⟨rfl, by decide⟩

/-- The periodic entry due at its interval and not one tick before, nor without an interval; in Stepping a busy and a
free transmitter. -/
theorem test_witness_ScantickStepsTheQueue :
    let step3 := { State.reset with scanState := .stepping, scanRemaining := 3 }
    wellFormedConfig State.reset.cfg = true ∧ State.reset.isHeatPump ∧
    wellFormedConfig periodic.cfg = true ∧ periodic.isHeatPump ∧ periodic.scanState = .idle ∧
    ((∃ d, periodic.cfg.scanInterval = some d ∧ d.toNat ≤ ((100 : Word) - periodic.passEndTime).toNat) ∧
      periodic.passDone = false) ∧
    ¬ (∃ d, periodic.cfg.scanInterval = some d ∧ d.toNat ≤ ((99 : Word) - periodic.passEndTime).toNat) ∧
    State.reset.cfg.scanInterval = none ∧ State.reset.scanState = .idle ∧
    ({ hpSending with scanState := .stepping }.scanState = .stepping ∧ hpSending.txActive = true) ∧
    (step3.scanState = .stepping ∧ step3.txActive = false) :=
  ⟨test_refHp_wellFormed, rfl, by decide +kernel, rfl, rfl, ⟨⟨100, rfl, by decide⟩, rfl⟩,
    fun ⟨d, h, h'⟩ => by cases h; revert h'; decide, rfl, rfl, ⟨rfl, rfl⟩, rfl, rfl⟩

/-- Another text and the label, in both states; a blank text, the end of the debounce, a busy transmitter; a value held
long enough, of the first property and of the last. -/
theorem test_witness_ScantickCapturesValues :
    let at0 := { showing 0xDA 0x66 0x10 with scanState := .awaitingValue, labelSeenAt := 1200 }
    let label := { showing 0x1E 0x60 0x00 with scanState := .awaitingLabel }
    wellFormedConfig at0.cfg = true ∧ at0.isHeatPump ∧
    (at0.scanState = .awaitingValue ∧ at0.displayText ≠ at0.cfg.labels.getD at0.scanIndex []) ∧
    (label.scanState = .awaitingLabel ∧ label.displayText = label.cfg.labels.getD label.scanIndex []) ∧
    (∀ x ∈ State.reset.displayText, x = ch ' ') ∧
    ((1500 : Word) - at0.labelSeenAt).toNat ≤ at0.cfg.debounce.toNat ∧ hpSending.txActive = true ∧
    ¬ ((∀ x ∈ at0.displayText, x = ch ' ') ∨ ((1501 : Word) - at0.labelSeenAt).toNat ≤ at0.cfg.debounce.toNat ∨
      at0.txActive = true) ∧
    at0.scanIndex + 1 < 27 ∧
    (let at26 := { at0 with scanIndex := 26 }
     at26.displayText ≠ at26.cfg.labels.getD at26.scanIndex [] ∧ 27 ≤ at26.scanIndex + 1) :=
  ⟨test_refHp_wellFormed, rfl, by decide⟩

theorem test_witness_PropsnapReadsTheCatalogue : State.reset.isHeatPump ∧ tinyState.cfg.variant = .generic :=
  ⟨rfl, rfl⟩

theorem test_witness_WireMessagesBecomeEdges : 199 < State.reset.cfg.tableLen := by decide

end Sys2Proof.Tests
end

section
/-! SUPPORT. Decoding, as the step needs it: the port of what the command port decodes to, and the stamped buffer of a
wire message read back (spec/30_encoding.md R35, R43). -/

namespace Sys2Proof

/-- Operands that decode give the operation built from what was read. -/
theorem withOperands_eq_instr {α : Type} {r : Option (α × List Byte)} {f : α → Instr} {i : Instr} :
    withOperands r f = .instr i ↔ ∃ a rest, r = some (a, rest) ∧ f a = i := by
  cases r with
  | none => simp [withOperands]
  | some p => simp [withOperands, Prod.ext_iff]

/-- Whatever the command port decodes is an operation of the command port. -/
theorem portOf_of_decodeCommand {c : Configuration} {b : List Byte} {i : Instr}
    (h : decodeCommand c b = .instr i) : portOf i = .command := by
  cases b with
  | nil => cases h
  | cons op operands =>
    simp only [decodeCommand] at h
    split at h <;> grind [withOperands_eq_instr, portOf]

/-- A number's four bytes read back as the number, and the bytes after them are left. -/
@[simp] theorem readWord_putWord (w : Word) (rest : List Byte) : readWord (putWord w ++ rest) = some (w, rest) := by
  have hw : w.toNat < 2 ^ 32 := w.isLt
  simp only [putWord, List.cons_append, List.nil_append, readWord, BitVec.toNat_ofNat, Option.some.injEq,
    Prod.mk.injEq, and_true]
  apply BitVec.eq_of_toNat_eq
  rw [BitVec.toNat_ofNat]
  omega

/-- A buffer of the asked length reads back, and the bytes after it are left. -/
@[simp] theorem readBuffer_append (b rest : List Byte) : readBuffer b.length (b ++ rest) = some (b, rest) := by
  simp [readBuffer]

/-- A wire message's bytes read back, whatever follows them. -/
theorem readStamped_append {n : Nat} {b : List Byte} (hb : b.length = n) (now : Word) (rest : List Byte) :
    readStamped n (b ++ putWord now ++ rest) = some ((b, now), rest) := by
  subst hb
  simp [readStamped, List.append_assoc]

/-- A wire message whose instruction byte names no kind (R43). -/
theorem decode_wire_unrecognised {c : Configuration} {b : List Byte} (hb : b.length = c.msgLen)
    (hk : Machine.wireKind c b = none) (now : Word) (rest : List Byte) :
    decode c (.wire (b ++ putWord now ++ rest)) = .rejected .unrecognisedKind := by
  simp only [decode, decodeWire, readStamped_append hb, hk]

end Sys2Proof
end

section
/-! SUPPORT. What the next step takes, said once for each situation of the host (spec/20_memory.md R29, R32;
spec/41_transceiver_tx.md R63). -/

namespace Sys2Proof.Machine

/-- Nothing offered and no HASUPD in progress: the block stays as it is. -/
theorem step_of_empty {s : State} (hin : s.inbox = []) (hidle : s.hasupd = .idle) : step s = .next s := by
  have hturn : nextTurn s = .quiet := by
    cases hb : s.hostBlocked <;> simp [nextTurn, hidle, hb, nextWhileBlocked, nextFree, hin, firstNonCommand]
  simp [step, hturn]

/-- The turn of a HASUPD in progress. -/
theorem nextTurn_of_split {s : State} (hsplit : s.hasupd ≠ .idle) : nextTurn s = nextDuringHasupd s := by
  cases h : s.hasupd with
  | idle => exact absurd h hsplit
  | cleared | read0 b0 | read1 b0 b1 => simp [nextTurn, h]

/-- A HASUPD in progress goes on when nothing is offered, or a command that must wait (R32). -/
theorem step_of_split {s : State} (hin : s.inbox = [] ∨ ∃ b rest, s.inbox = .command b :: rest)
    (hsplit : s.hasupd ≠ .idle) : step s = exec .hasupd s := by
  have hturn : nextTurn s = .resume s := by
    rw [nextTurn_of_split hsplit]
    obtain hnil | ⟨b, rest, hcons⟩ := hin
    · simp [nextDuringHasupd, hnil]
    · simp [nextDuringHasupd, hcons]
  simp [step, hturn]

/-- A host turn lets a HASUPD in progress go on (R32). -/
theorem step_of_split_turn {s : State} {rest : List Request} (hin : s.inbox = .turn :: rest)
    (hsplit : s.hasupd ≠ .idle) : step s = exec .hasupd { s with inbox := rest } := by
  simp [step, nextTurn_of_split hsplit, nextDuringHasupd, hin]

/-- With no HASUPD in progress, the head of the inbox is taken if the host may issue it or need not (R63). -/
theorem nextTurn_of_idle {s : State} {r : Request} {rest : List Request} (hin : s.inbox = r :: rest)
    (hidle : s.hasupd = .idle) (hr : s.hostBlocked = false ∨ isCommand r = false) :
    nextTurn s = .take r { s with inbox := rest } := by
  cases hb : s.hostBlocked with
  | false => simp [nextTurn, hidle, hb, nextFree, hin]
  | true =>
    have hcmd : isCommand r = false := by simpa [hb] using hr
    simp [nextTurn, hidle, hb, nextWhileBlocked, hin, firstNonCommand, hcmd]

/-- The head of the inbox is taken by a free host, and an event or a wire message by a host that is held as well. -/
theorem nextTurn_of_cons {s : State} {r : Request} {rest : List Request} (hin : s.inbox = r :: rest)
    (hr : s.hostFree ∨ (isCommand r = false ∧ r ≠ .turn)) : nextTurn s = .take r { s with inbox := rest } := by
  obtain ⟨hblocked, hidle⟩ | ⟨hcmd, hturn⟩ := hr
  · exact nextTurn_of_idle hin hidle (.inl hblocked)
  by_cases hidle : s.hasupd = .idle
  · exact nextTurn_of_idle hin hidle (.inr hcmd)
  rw [nextTurn_of_split hidle]
  cases r with
  | command b => cases hcmd
  | turn => exact absurd rfl hturn
  | event b | wire b => simp [nextDuringHasupd, hin]

/-- The step then runs that request. -/
theorem step_of_cons {s : State} {r : Request} {rest : List Request} (hin : s.inbox = r :: rest)
    (hr : s.hostFree ∨ (isCommand r = false ∧ r ≠ .turn)) : step s = runRequest r { s with inbox := rest } := by
  simp [step, nextTurn_of_cons hin hr]

/-- A host turn with no HASUPD in progress is taken and has no effect. -/
theorem step_of_idle_turn {s : State} {rest : List Request} (hin : s.inbox = .turn :: rest)
    (hidle : s.hasupd = .idle) : step s = .next { s with inbox := rest } := by
  simp [step, nextTurn_of_idle hin hidle (.inr rfl), runRequest, decode]

/-- A request that decodes to an operation of another port than the command port is an event or a wire message. -/
theorem not_command_of_decode {c : Configuration} {r : Request} {i : Instr} (hdec : decode c r = .instr i)
    (hport : portOf i ≠ .command) : isCommand r = false ∧ r ≠ .turn := by
  cases r with
  | command b => exact absurd (portOf_of_decodeCommand hdec) hport
  | turn => cases hdec
  | event b | wire b => exact ⟨rfl, by simp⟩

/-- The head of the inbox that decodes to an operation is taken and the operation runs. -/
theorem step_of_decoded {s : State} {r : Request} {rest : List Request} {i : Instr} (hin : s.inbox = r :: rest)
    (hdec : decode s.cfg r = .instr i) (hr : s.hostFree ∨ portOf i ≠ .command) :
    step s = exec i { s with inbox := rest } := by
  rw [step_of_cons hin (hr.imp_right (not_command_of_decode hdec))]
  simp [runRequest, hdec]

/-- The head of the inbox whose operands end too early stops the model (notes/assumptions/17.md). -/
theorem step_of_truncated {s : State} {r : Request} {rest : List Request} (hin : s.inbox = r :: rest)
    (hdec : decode s.cfg r = .rejected .truncated) (hr : s.hostFree ∨ isCommand r = false) :
    step s = .fault .truncatedBundle := by
  have hturn : r ≠ .turn := by rintro rfl; cases hdec
  rw [step_of_cons hin (hr.imp_right fun hcmd => ⟨hcmd, hturn⟩)]
  simp [runRequest, hdec]

/-- A wire message of no known kind puts the same pulses on the wire as a Command (R43, R62). -/
theorem step_of_unrecognisedKind {s : State} {buf extra : List Byte} {now : Word} {rest : List Request}
    (hin : s.inbox = .wire (buf ++ putWord now ++ extra) :: rest) (hlen : buf.length = s.cfg.msgLen)
    (hkind : wireKind s.cfg buf = none) : step s = exec (.msgCommand buf now) { s with inbox := rest } := by
  rw [step_of_cons hin (.inr ⟨rfl, by simp⟩)]
  simp only [runRequest, decode_wire_unrecognised hlen hkind, unrecognisedMessage, readStamped_append hlen]
  rfl

end Sys2Proof.Machine
end

section
/-! SUPPORT. RESET (spec/46_system_ops.md R120), and the constraints of spec/00_scope.md R5 that Laws/Config does not
draw from a well-formed record, in the form in which a record can miss them. -/

namespace Sys2Proof.Machine

/-! ### The two answers of RESET -/

/-- A well-formed record constructs the block; what lies outside the block stays (R120, notes/assumptions/27.md). -/
theorem exec_reset_of_wf {c : Configuration} (h : wellFormedConfig c = true) (s : State) :
    exec (.reset c) s = .next { State.construct c with
      inbox := s.inbox, responses := s.responses ++ [⟨.ok, .empty⟩], toggles := s.toggles } := by
  simp [exec, execReset, h, State.respond]

/-- An ill-formed record is refused and changes nothing (R120). -/
theorem exec_reset_of_illFormed {c : Configuration} (h : wellFormedConfig c = false) (s : State) :
    exec (.reset c) s = .next { s with responses := s.responses ++ [⟨.resourceExhaustion, .empty⟩] } := by
  simp [exec, execReset, h, State.respond]

/-- A record with a flaw that no well-formed record has is refused. -/
theorem exec_reset_of_flaw {c : Configuration} {flaw : Prop} (hflaw : wellFormedConfig c = true → ¬ flaw)
    (s : State) (h : flaw) :
    exec (.reset c) s = .next { s with responses := s.responses ++ [⟨.resourceExhaustion, .empty⟩] } :=
  exec_reset_of_illFormed (Bool.eq_false_iff.mpr fun hwf => hflaw hwf h) s

/-- The owned message of a heat-pump block after its construction (R73). -/
theorem resetMessage_of_heatPump {c : Configuration} (hv : c.variant = .heatPump) :
    resetMessage c = build c ((c.markerValue ||| c.kindCommand) :: List.replicate (c.payloadBytes - 1) 0) := by
  simp [resetMessage, hv]

/-! ### Relations the constraints are made of -/

/-- Disjoint windows have no duration in common. -/
theorem not_inWindow_of_disjoint {a b : Window} (h : disjointWindows a b = true) {d : Word} (ha : InWindow a d) :
    ¬ InWindow b d := by
  simp only [disjointWindows, Bool.or_eq_true, decide_eq_true_eq, BitVec.lt_def] at h
  rintro ⟨hlo, hhi⟩
  obtain ⟨hlo', hhi'⟩ := ha
  omega

/-- Two fields with no bit in common: one ends before the other begins. -/
def FieldsApart (f g : Field) : Prop := f.start + f.width ≤ g.start ∨ g.start + g.width ≤ f.start

/-- The model's test of a list of fields is pairwise separation. -/
theorem pairwiseDisjoint_iff (fs : List Field) : pairwiseDisjoint fs = true ↔ fs.Pairwise FieldsApart := by
  induction fs with
  | nil => simp [pairwiseDisjoint]
  | cons f fs ih => simp [pairwiseDisjoint, disjointFields, FieldsApart, ih]

/-- Codes that decode to their value and no other belong to one value each. -/
theorem injective_of_decodes {α : Type} {code : α → Nat} {value : Nat → Option α}
    (h : ∀ a k, value k = some a ↔ k = code a) : Function.Injective code := by
  intro a b hab
  have ha : value (code a) = some a := (h a _).mpr rfl
  have hb : value (code a) = some b := (h b _).mpr hab
  exact Option.some.inj (ha.symm.trans hb)

/-! ### Constraints for either variant -/

section
variable {c : Configuration}

/-- ε lies between 0 and 1 (R5). -/
theorem wf_eps (h : wellFormedConfig c = true) : 0 < c.epsNum ∧ c.epsNum < c.epsDen := by
  simp only [wellFormedConfig, wfDescriptor, Bool.and_eq_true, decide_eq_true_eq] at h
  tauto

/-- There is a tick, and every nominal duration fits a tick counter (R5, R39). -/
theorem wf_ticks (h : wellFormedConfig c = true) :
    1 ≤ c.ticksPerUs ∧ ∀ w ∈ windowsOf c, w.nominal.toNat * c.ticksPerUs < 2 ^ 32 := by
  simp only [wellFormedConfig, wfPlatform, Bool.and_eq_true, List.all_eq_true, decide_eq_true_eq] at h
  obtain ⟨⟨⟨-, ⟨-, htick⟩, hfits⟩, -⟩, -⟩ := h
  exact ⟨htick, hfits⟩

/-- The display's codes and texts and the label catalogue (R5, notes/assumptions/24.md). -/
theorem wf_display (h : wellFormedConfig c = true) :
    c.blankCode.getLsbD 0 = false ∧
      (∀ e ∈ c.segTable, e.1.getLsbD 0 = false ∧ 1 ≤ e.2.length ∧ e.2.length ≤ 2) ∧
      c.labels.length = 27 ∧ ∀ l ∈ c.labels, l.length ≤ 2 := by
  simp only [wellFormedConfig, wfDisplay, Bool.and_eq_true, Bool.not_eq_true', decide_eq_true_eq,
    List.all_eq_true] at h
  tauto

/-- No duration is a zero and a one, and none is a break and a zero or a one (R5, D28). -/
theorem wf_noCommonDuration (h : wellFormedConfig c = true) (d : Word) :
    ¬ (InWindow c.zeroWindow d ∧ InWindow c.oneWindow d) ∧
      (0 < c.breakWindow.nominal.toNat →
        ¬ (InWindow c.breakWindow d ∧ (InWindow c.zeroWindow d ∨ InWindow c.oneWindow d))) := by
  obtain ⟨hzeroOne, hbreak⟩ := wf_disjoint h
  refine ⟨fun ⟨hzero, hone⟩ => not_inWindow_of_disjoint hzeroOne hzero hone, fun hpos => ?_⟩
  obtain ⟨hzeroBreak, honeBreak⟩ := hbreak (if_pos hpos)
  rintro ⟨hd, hzero | hone⟩
  · exact not_inWindow_of_disjoint hzeroBreak hzero hd
  · exact not_inWindow_of_disjoint honeBreak hone hd

/-! ### Constraints of a heat-pump record -/

/-- The masks of the instruction byte are the two nibbles, one each (R5). -/
theorem wf_masks (h : wellFormedConfig c = true) (hv : c.variant = .heatPump) :
    c.markerMask ∈ ([0xF0, 0x0F] : List Byte) ∧ c.kindMask ∈ ([0xF0, 0x0F] : List Byte) ∧
      c.markerMask ≠ c.kindMask := by
  have hcodec := wf_codec h hv
  simp only [wfCodec, wfInstructionByte, isNibble, Bool.and_eq_true, Bool.or_eq_true, beq_iff_eq] at hcodec
  obtain ⟨⟨⟨⟨⟨⟨hmarker, hkind⟩, hdisjoint⟩, -⟩, -⟩, -⟩, -⟩ := hcodec
  refine ⟨by simpa using hmarker, by simpa using hkind, fun heq => ?_⟩
  rw [← heq] at hdisjoint
  obtain hm | hm := hmarker <;> simp [hm] at hdisjoint

/-- The temperature bounds have codes of their fields (R5, R41): none is negative and the greatest fit. -/
theorem wf_tempBounds (h : wellFormedConfig c = true) (hv : c.variant = .heatPump) :
    (∀ t ∈ [c.tempMin - c.tempOffset, c.tempMax - c.tempOffset, c.fmTempMin - c.fmTempOffset,
        c.fmTempMax - c.fmTempOffset], 0 ≤ t) ∧
      c.tempMax - c.tempOffset < 2 ^ c.fieldMap.temp.width ∧
      c.fmTempMax - c.fmTempOffset < 2 ^ c.fieldMap.fmTemp.width := by
  have hcodec := wf_codec h hv
  simp only [wfCodec, wfTemperatures, wfRange, Bool.and_eq_true, decide_eq_true_eq] at hcodec
  simp only [List.forall_mem_cons, List.not_mem_nil, false_implies, implies_true, and_true]
  tauto

/-- The modes, the fan speeds and the lifecycle states have codes of their own (R5). -/
theorem wf_codes_injective (h : wellFormedConfig c = true) (hv : c.variant = .heatPump) :
    Function.Injective (modeCodeOf c) ∧ Function.Injective (fanCodeOf c) ∧ Function.Injective (fmStateCodeOf c) :=
  ⟨injective_of_decodes fun m => (wf_modeCode h hv m).2, injective_of_decodes fun f => (wf_fanCode h hv f).2,
    injective_of_decodes fun st => (wf_fmStateCode h hv st).2⟩

end

end Sys2Proof.Machine
end

section
/-! CERTIFICATE. The statements about the step and about RESET, settled from the lemmas above. -/

namespace Sys2Proof.Machine

/-- Settles O4, by the situation of the host: each clause is the lemma about what the step then takes. -/
theorem stepRunsTheDecodedOperation : Obligations.StepRunsTheDecodedOperation := by
  intro s
  refine ⟨fun r rest i => step_of_decoded, step_of_empty, step_of_split, fun rest hin => ?_,
    fun r rest => step_of_truncated, fun buf extra now rest => step_of_unrecognisedKind⟩
  split
  · next hidle => exact step_of_idle_turn hin hidle
  · next hsplit => exact step_of_split_turn hin hsplit

/-- Settles O14: a well-formed record gives the constructed block, and each flaw contradicts what a well-formed record
satisfies. -/
theorem resetConstructsTheBlock : Obligations.ResetConstructsTheBlock := by
  intro c s
  constructor
  · intro h
    refine ⟨_, exec_reset_of_wf h s, ?_⟩
    have hcm := @resetMessage_of_heatPump c
    simpa [State.construct] using hcm
  intro refused m apart windows
  have refuse {flaw : Prop} (hflaw : wellFormedConfig c = true → ¬ flaw) : flaw → refused :=
    exec_reset_of_flaw hflaw s
  refine ⟨(exec_reset_of_illFormed · s), refuse ?ring, refuse ?eps, refuse ?counts, refuse ?ticks, refuse ?windows,
    refuse ?disjoint, refuse ?display, fun hv => ⟨refuse ?shape, refuse ?masks, refuse ?fields, refuse ?codes,
    refuse ?temps, refuse ?options⟩⟩
  all_goals intro hwf
  case ring =>
    obtain ⟨htable, hthreshold, hsync⟩ := wf_ring hwf
    rw [Configuration.tableLen, Configuration.frameLen, Nat.add_comm c.syncCount] at htable
    rw [Configuration.threshold] at hthreshold
    omega
  case eps =>
    have := wf_eps hwf
    omega
  case counts =>
    have := wf_counts hwf
    have := wf_syncWindows hwf
    omega
  case ticks =>
    obtain ⟨htick, hfits⟩ := wf_ticks hwf
    rintro (hzero | ⟨w, hw, hlarge⟩)
    · omega
    · exact absurd (hfits w hw) (Nat.not_lt.mpr hlarge)
  case windows =>
    rintro ⟨w, hw, hbuilt⟩
    exact hbuilt (wf_windows hwf w hw)
  case disjoint =>
    rintro (⟨d, hd⟩ | ⟨hpos, d, hd⟩)
    · exact (wf_noCommonDuration hwf d).1 hd
    · exact (wf_noCommonDuration hwf d).2 hpos hd
  case display =>
    obtain ⟨hblank, hseg, hcount, hlabels⟩ := wf_display hwf
    rintro (hodd | ⟨e, he, hodd | hlength⟩ | hcount' | ⟨l, hl, hlong⟩)
    · exact Bool.false_ne_true (hblank.symm.trans hodd)
    · exact Bool.false_ne_true ((hseg e he).1.symm.trans hodd)
    · have := (hseg e he).2
      simp only [List.mem_cons, List.not_mem_nil, or_false] at hlength
      omega
    · exact hcount' hcount
    · exact absurd (hlabels l hl) (Nat.not_le.mpr hlong)
  case shape =>
    have := wf_heatPump hwf hv
    omega
  case masks =>
    obtain ⟨hmarker, hkind, hne⟩ := wf_masks hwf hv
    tauto
  case fields =>
    obtain ⟨hcommand, hfollowMe⟩ := wf_disjointFields hwf hv
    rintro (⟨f, hf, hout⟩ | hshare | hshare)
    · have := wf_field hwf hv f hf
      omega
    · exact hshare ((pairwiseDisjoint_iff _).mp hcommand)
    · exact hshare ((pairwiseDisjoint_iff _).mp hfollowMe)
  case codes =>
    obtain ⟨hmode, hfan, hfmState⟩ := wf_codes_injective hwf hv
    rintro (⟨x, y, hne, heq⟩ | ⟨x, y, hne, heq⟩ | ⟨x, y, hne, heq⟩)
    · exact hne (hmode heq)
    · exact hne (hfan heq)
    · exact hne (hfmState heq)
  case temps =>
    obtain ⟨hnonneg, htemp, hfmTemp⟩ := wf_tempBounds hwf hv
    rintro (⟨t, ht, hneg⟩ | hlarge | hlarge)
    · exact absurd (hnonneg t ht) (Int.not_le.mpr hneg)
    · exact absurd htemp (Int.not_lt.mpr hlarge)
    · exact absurd hfmTemp (Int.not_lt.mpr hlarge)
  case options =>
    obtain ⟨hfits, hselect, hadvance⟩ := wf_options hwf hv
    rintro (hempty | ⟨o, ho, hlarge⟩ | hselect' | hadvance')
    · simp [hempty] at hselect
    · exact absurd (hfits o ho) (Nat.not_lt.mpr hlarge)
    · exact hselect' hselect
    · exact hadvance' hadvance

end Sys2Proof.Machine
end

section
/-! SUPPORT. Whatever decodes is well-formed: the operands that are read have the shapes of spec/30_encoding.md R37
and the ranges of their packing (notes/assumptions/2.md). -/

namespace Sys2Proof

/-! ### What the readers yield -/

theorem readNat_fits {s rest : List Byte} {n : Nat} (h : readNat s = some (n, rest)) : fitsU32 n = true := by
  simp only [readNat, Option.bind_eq_bind, Option.bind_eq_some_iff, Option.some.injEq, Prod.mk.injEq] at h
  obtain ⟨⟨w, -⟩, -, rfl, -⟩ := h
  simpa [fitsU32] using w.isLt

theorem readInt_fits {s rest : List Byte} {t : Int} (h : readInt s = some (t, rest)) : fitsInt32 t = true := by
  simp only [readInt, Option.bind_eq_bind, Option.bind_eq_some_iff, Option.some.injEq, Prod.mk.injEq] at h
  obtain ⟨⟨w, -⟩, -, rfl, -⟩ := h
  simpa [fitsInt32] using And.intro (BitVec.le_toInt w) (BitVec.toInt_lt (x := w))

theorem length_of_readBuffer {n : Nat} {s b rest : List Byte} (h : readBuffer n s = some (b, rest)) :
    b.length = n := by
  unfold readBuffer at h
  split at h
  · cases h
  · cases h
    simp only [List.length_take]
    omega

theorem length_of_readStamped {n : Nat} {s b rest : List Byte} {now : Word}
    (h : readStamped n s = some ((b, now), rest)) : b.length = n := by
  simp only [readStamped, Option.bind_eq_bind, Option.bind_eq_some_iff, Option.some.injEq, Prod.mk.injEq] at h
  obtain ⟨_, hb, _, -, ⟨rfl, -⟩, -⟩ := h
  exact length_of_readBuffer hb

theorem readFmcmd_fits {n : Nat} {s prev rest : List Byte} {st : Option FmState} {t : Int}
    (h : readFmcmd n s = some ((prev, st, t), rest)) : prev.length = n ∧ fitsInt32 t = true := by
  simp only [readFmcmd, Option.bind_eq_bind, Option.bind_eq_some_iff, Option.some.injEq, Prod.mk.injEq] at h
  obtain ⟨_, hprev, _, -, _, ht, ⟨rfl, -, rfl⟩, -⟩ := h
  exact ⟨length_of_readBuffer hprev, readInt_fits ht⟩

theorem length_of_readText {s rest : List Byte} {t : List Ch} (h : readText s = some (t, rest)) : t.length ≤ 4 := by
  simp only [readText, Option.bind_eq_bind, Option.bind_eq_some_iff, Option.some.injEq, Prod.mk.injEq] at h
  obtain ⟨n, -, cs, hcs, rfl, -⟩ := h
  have := length_of_readBuffer hcs
  simp only [List.length_take]
  omega

/-- `n` operands are `n`, and each has what the operand's reader gives. -/
theorem readTimes_yields {α : Type} {r : Reader α} {P : α → Prop} (hr : ∀ {s a rest}, r s = some (a, rest) → P a)
    {n : Nat} {s rest : List Byte} {as : List α} (h : readTimes r n s = some (as, rest)) :
    as.length = n ∧ ∀ a ∈ as, P a := by
  induction n generalizing s rest as with
  | zero => cases h; simp
  | succ n ih =>
    simp only [readTimes, Option.bind_eq_bind, Option.bind_eq_some_iff, Option.some.injEq, Prod.mk.injEq] at h
    obtain ⟨⟨a, s'⟩, ha, ⟨as', s''⟩, has, rfl, -⟩ := h
    obtain ⟨hlen, hall⟩ := ih has
    exact ⟨by simp [hlen], List.forall_mem_cons.mpr ⟨hr ha, hall⟩⟩

/-- A list's count fits 32 bits, and each element has what the element's reader gives. -/
theorem readList_yields {α : Type} {r : Reader α} {P : α → Prop} (hr : ∀ {s a rest}, r s = some (a, rest) → P a)
    {s rest : List Byte} {as : List α} (h : readList r s = some (as, rest)) :
    fitsU32 as.length = true ∧ ∀ a ∈ as, P a := by
  simp only [readList, Option.bind_eq_bind, Option.bind_eq_some_iff] at h
  obtain ⟨⟨n, s'⟩, hn, has⟩ := h
  obtain ⟨rfl, hall⟩ := readTimes_yields hr has
  exact ⟨readNat_fits hn, hall⟩

theorem readList_fits {α : Type} {r : Reader α} {s rest : List Byte} {as : List α}
    (h : readList r s = some (as, rest)) : fitsU32 as.length = true :=
  (readList_yields (P := fun _ => True) (fun _ => trivial) h).1

theorem readSegEntry_fits {s rest : List Byte} {e : Byte × List Ch} (h : readSegEntry s = some (e, rest)) :
    fitsU32 e.2.length = true := by
  simp only [readSegEntry, Option.bind_eq_bind, Option.bind_eq_some_iff, Option.some.injEq, Prod.mk.injEq] at h
  obtain ⟨k, -, t, ht, rfl, -⟩ := h
  exact readList_fits ht

theorem readSegTable_fits {s rest : List Byte} {es : List (Byte × List Ch)}
    (h : readList readSegEntry s = some (es, rest)) : ∀ e ∈ es, fitsU32 e.2.length = true :=
  (readList_yields readSegEntry_fits h).2

theorem readLabels_fits {s rest : List Byte} {ls : List (List Ch)}
    (h : readList (readList readByte) s = some (ls, rest)) : ∀ l ∈ ls, fitsU32 l.length = true :=
  (readList_yields readList_fits h).2

theorem readChecksum_encodable {s rest : List Byte} {x : ChecksumChoice} (h : readChecksum s = some (x, rest)) :
    x.encodable = true := by
  simp only [readChecksum, Option.bind_eq_bind, Option.bind_eq_some_iff, Option.some.injEq, Prod.mk.injEq] at h
  obtain ⟨⟨n, s'⟩, hn, rfl, -⟩ := h
  cases n with
  | zero => rfl
  | succ n => exact readNat_fits hn

theorem readField_encodable {s rest : List Byte} {f : Field} (h : readField s = some (f, rest)) :
    f.encodable = true := by
  simp only [readField, Option.bind_eq_bind, Option.bind_eq_some_iff, Option.some.injEq, Prod.mk.injEq] at h
  obtain ⟨start, hstart, width, hwidth, rfl, -⟩ := h
  simp [Field.encodable, readNat_fits hstart, readNat_fits hwidth]

theorem readFieldMap_encodable {s rest : List Byte} {m : FieldMap} (h : readFieldMap s = some (m, rest)) :
    m.encodable = true := by
  unfold readFieldMap at h
  repeat obtain ⟨⟨_, _⟩, _, h⟩ := Option.bind_eq_some_iff.mp h
  cases h
  simp only [FieldMap.encodable, List.all_cons, List.all_nil, Bool.and_true, Bool.and_eq_true]
  and_intros <;> with_reducible exact readField_encodable ‹_›

theorem readModeCode_fits {s rest : List Byte} {m : ModeCode} (h : readModeCode s = some (m, rest)) :
    [m.auto, m.cool, m.dry, m.heat, m.fan].all fitsU32 = true := by
  simp only [readModeCode, Option.bind_eq_bind, Option.bind_eq_some_iff, Option.some.injEq, Prod.mk.injEq] at h
  obtain ⟨auto, hauto, cool, hcool, dry, hdry, heat, hheat, fan, hfan, rfl, -⟩ := h
  simp [readNat_fits hauto, readNat_fits hcool, readNat_fits hdry, readNat_fits hheat, readNat_fits hfan]

theorem readFanCode_fits {s rest : List Byte} {m : FanCode} (h : readFanCode s = some (m, rest)) :
    [m.auto, m.low, m.medium, m.high].all fitsU32 = true := by
  simp only [readFanCode, Option.bind_eq_bind, Option.bind_eq_some_iff, Option.some.injEq, Prod.mk.injEq] at h
  obtain ⟨auto, hauto, low, hlow, medium, hmedium, high, hhigh, rfl, -⟩ := h
  simp [readNat_fits hauto, readNat_fits hlow, readNat_fits hmedium, readNat_fits hhigh]

theorem readFmStateCode_fits {s rest : List Byte} {m : FmStateCode} (h : readFmStateCode s = some (m, rest)) :
    [m.start, m.update, m.stop].all fitsU32 = true := by
  simp only [readFmStateCode, Option.bind_eq_bind, Option.bind_eq_some_iff, Option.some.injEq, Prod.mk.injEq] at h
  obtain ⟨start, hstart, update, hupdate, stop, hstop, rfl, -⟩ := h
  simp [readNat_fits hstart, readNat_fits hupdate, readNat_fits hstop]

/-- A record is encodable when its numbers fit, group by group. -/
theorem encodable_of_fits {c : Configuration}
    (hcounts : [c.epsNum, c.epsDen, c.sampleCount, c.bitCount, c.syncCount, c.ringCap, c.ticksPerUs, c.nSelect,
      c.nAdvance].all fitsU32 = true)
    (hmode : [c.modeCode.auto, c.modeCode.cool, c.modeCode.dry, c.modeCode.heat, c.modeCode.fan].all fitsU32 = true)
    (hfan : [c.fanCode.auto, c.fanCode.low, c.fanCode.medium, c.fanCode.high].all fitsU32 = true)
    (hfmState : [c.fmStateCode.start, c.fmStateCode.update, c.fmStateCode.stop].all fitsU32 = true)
    (hlengths : [c.syncWindows.length, c.optionSet.length, c.segTable.length, c.labels.length].all fitsU32 = true)
    (htemps : [c.tempOffset, c.tempMin, c.tempMax, c.fmTempOffset, c.fmTempMin, c.fmTempMax].all fitsInt32 = true)
    (hfields : c.fieldMap.encodable = true) (hchecksum : c.checksum.encodable = true)
    (hseg : ∀ e ∈ c.segTable, fitsU32 e.2.length = true) (hlabels : ∀ l ∈ c.labels, fitsU32 l.length = true) :
    c.encodable = true := by
  simp only [List.all_cons, List.all_nil, Bool.and_true, Bool.and_eq_true]
    at hcounts hmode hfan hfmState hlengths htemps
  simp only [Configuration.encodable, List.all_cons, List.all_nil, Bool.and_true, Bool.and_eq_true, List.all_eq_true,
    hfields, hchecksum]
  tauto

/-- Every part of a record is read by its own reader, so the record is encodable group by group. -/
theorem readConfig_encodable {s rest : List Byte} {c : Configuration} (h : readConfig s = some (c, rest)) :
    c.encodable = true := by
  unfold readConfig at h
  repeat obtain ⟨⟨_, _⟩, _, h⟩ := Option.bind_eq_some_iff.mp h
  cases h
  apply encodable_of_fits
  case hmode => exact readModeCode_fits ‹_›
  case hfan => exact readFanCode_fits ‹_›
  case hfmState => exact readFmStateCode_fits ‹_›
  case hfields => exact readFieldMap_encodable ‹_›
  case hchecksum => exact readChecksum_encodable ‹_›
  case hseg => exact readSegTable_fits ‹_›
  case hlabels => exact readLabels_fits ‹_›
  case hcounts =>
    simp only [List.all_cons, List.all_nil, Bool.and_true, Bool.and_eq_true]
    and_intros <;> with_reducible exact readNat_fits ‹_›
  case hlengths =>
    simp only [List.all_cons, List.all_nil, Bool.and_true, Bool.and_eq_true]
    and_intros <;> with_reducible exact readList_fits ‹_›
  case htemps =>
    simp only [List.all_cons, List.all_nil, Bool.and_true, Bool.and_eq_true]
    and_intros <;> with_reducible exact readInt_fits ‹_›

/-! ### What the decoder yields -/

theorem isBuffer_iff {c : Configuration} {b : List Byte} : isBuffer c b = true ↔ b.length = c.msgLen := by
  simp [isBuffer]

/-- An operation built from operands is well-formed when all that its operands' reader yields makes it so. -/
theorem wellFormed_of_withOperands {α : Type} {c : Configuration} {o : Option (α × List Byte)} {f : α → Instr}
    {i : Instr} (h : withOperands o f = .instr i)
    (hf : ∀ {a rest}, o = some (a, rest) → (f a).wellFormed c = true) : i.wellFormed c = true := by
  obtain ⟨a, rest, ho, rfl⟩ := withOperands_eq_instr.mp h
  exact hf ho

theorem wellFormed_of_decodeCommand {c : Configuration} {b : List Byte} {i : Instr}
    (h : decodeCommand c b = .instr i) : i.wellFormed c = true := by
  cases b with
  | nil => cases h
  | cons op operands =>
    simp only [decodeCommand] at h
    split at h
    -- RESET
    case h_2 => exact wellFormed_of_withOperands h readConfig_encodable
    -- SEND and SEND.W
    case h_6 | h_7 => exact wellFormed_of_withOperands h fun ho => isBuffer_iff.mpr (length_of_readBuffer ho)
    -- ISVALID and ISVALID.S
    case h_11 | h_12 => exact wellFormed_of_withOperands h fun ho => isBuffer_iff.mpr (length_of_readStamped ho)
    -- FMCMD
    case h_15 =>
      refine wellFormed_of_withOperands h fun ho => ?_
      obtain ⟨hlen, hfits⟩ := readFmcmd_fits ho
      exact Bool.and_eq_true_iff.mpr ⟨isBuffer_iff.mpr hlen, hfits⟩
    -- SET.TEMP and SET.FMTEMP
    case h_28 | h_32 => exact wellFormed_of_withOperands h readInt_fits
    -- A2I
    case h_39 => exact wellFormed_of_withOperands h fun ho => decide_eq_true (length_of_readText ho)
    -- no operands, or operands that any bytes are
    any_goals (cases h <;> rfl)
    all_goals exact wellFormed_of_withOperands h fun _ => rfl

theorem wellFormed_of_decodeEvent {c : Configuration} {b : List Byte} {i : Instr}
    (h : decodeEvent b = .instr i) : i.wellFormed c = true := by
  cases b with
  | nil => cases h
  | cons ev operands =>
    simp only [decodeEvent] at h
    split at h
    any_goals (cases h <;> rfl)
    all_goals exact wellFormed_of_withOperands h fun _ => rfl

theorem wellFormed_of_decodeWire {c : Configuration} {b : List Byte} {i : Instr}
    (h : decodeWire c b = .instr i) : i.wellFormed c = true := by
  unfold decodeWire at h
  split at h
  · cases h
  · next buf now rest hread =>
    have hlen : isBuffer c buf = true := isBuffer_iff.mpr (length_of_readStamped hread)
    split at h <;> cases h <;> simp [Instr.wellFormed, *]

/-- Whatever decodes has the operand shapes of R37. -/
theorem wellFormed_of_decode {c : Configuration} {r : Request} {i : Instr} (h : decode c r = .instr i) :
    i.wellFormed c = true := by
  cases r with
  | command b => exact wellFormed_of_decodeCommand h
  | event b => exact wellFormed_of_decodeEvent h
  | wire b => exact wellFormed_of_decodeWire h
  | turn => cases h

end Sys2Proof
end

section
/-! SUPPORT. The step as an effect: whatever a step does is an effect (Laws/Effect) of one operation, so that a fact
about every step follows from one about every effect. -/

namespace Sys2Proof.Machine

/-- A HASUPD in progress goes on, or an event or a wire message comes between (R32). -/
theorem nextDuringHasupd_cases (s : State) :
    (∃ rs, nextDuringHasupd s = .resume { s with inbox := rs }) ∨
      ∃ r rs, nextDuringHasupd s = .take r { s with inbox := rs } := by
  unfold nextDuringHasupd
  split
  · exact .inl ⟨s.inbox, rfl⟩
  · exact .inl ⟨s.inbox, rfl⟩
  · exact .inl ⟨_, rfl⟩
  · exact .inr ⟨_, _, rfl⟩
  · exact .inr ⟨_, _, rfl⟩

/-- Whatever turn is next, it takes requests from the inbox and changes nothing else. -/
theorem nextTurn_cases (s : State) :
    nextTurn s = .quiet ∨ (∃ rs, nextTurn s = .resume { s with inbox := rs }) ∨
      ∃ r rs, nextTurn s = .take r { s with inbox := rs } := by
  by_cases hidle : s.hasupd = .idle
  · have hturn : nextTurn s = if s.hostBlocked then nextWhileBlocked s else nextFree s := by simp [nextTurn, hidle]
    rw [hturn]
    split
    · unfold nextWhileBlocked
      split
      · exact .inl rfl
      · exact .inr (.inr ⟨_, _, rfl⟩)
    · unfold nextFree
      split
      · exact .inl rfl
      · exact .inr (.inr ⟨_, _, rfl⟩)
  · rw [nextTurn_of_split hidle]
    exact .inr (nextDuringHasupd_cases s)

/-- A request that completes has an effect of an operation whose operands the ports can carry. -/
theorem runRequest_effect {r : Request} {s t : State} (h : runRequest r s = .next t) :
    ∃ i : Instr, i.wellFormed s.cfg = true ∧ Effect s i t := by
  unfold runRequest at h
  split at h
  · next i hdec => exact ⟨i, wellFormed_of_decode hdec, exec_effect s i t h⟩
  · cases h
    exact ⟨.nop, rfl, .respond _ _ .stay⟩
  · unfold unrecognisedMessage at h
    split at h
    · split at h
      · cases h
        exact ⟨.nop, rfl, .message _ _⟩
      · cases h
    all_goals
      cases h
      exact ⟨.nop, rfl, .stay⟩
  · cases h
    exact ⟨.nop, rfl, .stay⟩
  · cases h

/-- Whatever a step does, it is an effect of an operation whose operands the ports can carry, on a state that differs
from the present one by its inbox alone. -/
theorem step_effect {s t : State} (h : step s = .next t) :
    ∃ (rs : List Request) (i : Instr), i.wellFormed s.cfg = true ∧ Effect { s with inbox := rs } i t := by
  unfold step at h
  obtain hq | ⟨rs, hr⟩ | ⟨r, rs, ht⟩ := nextTurn_cases s
  · rw [hq] at h
    cases h
    exact ⟨s.inbox, .nop, rfl, .stay⟩
  · rw [hr] at h
    exact ⟨rs, .hasupd, rfl, exec_effect _ _ _ h⟩
  · rw [ht] at h
    obtain ⟨i, hi, he⟩ := runRequest_effect h
    exact ⟨rs, i, hi, he⟩

end Sys2Proof.Machine
end

section
/-! SUPPORT. Heat-pump messages: their first byte, their lengths, the payload that validates and the reset message
(spec/30_encoding.md R42, R43; spec/43_codec.md R72 to R76). -/

namespace Sys2Proof.Machine

/-! ### The first byte of a message -/

theorem headD_putBitG {buf : List Byte} {g : Nat} (hg : 8 ≤ g) (v : Bool) :
    (putBitG buf g v).headD 0 = buf.headD 0 := by
  obtain ⟨k, hk⟩ : ∃ k, g / 8 = k + 1 := ⟨g / 8 - 1, by omega⟩
  cases buf <;> simp [putBitG, hk]

theorem headD_putBitsG (w : Nat) {buf : List Byte} {g : Nat} (hg : 8 ≤ g) (v : Nat) :
    (putBitsG buf g v w).headD 0 = buf.headD 0 := by
  induction w generalizing buf g with
  | zero => rfl
  | succ w ih => rw [putBitsG, ih (by omega), headD_putBitG hg]

/-- A field past the instruction byte leaves the instruction byte. -/
theorem headD_putField {f : Field} (hf : 8 ≤ f.start) (buf : List Byte) (v : Nat) :
    (putField buf f v).headD 0 = buf.headD 0 :=
  headD_putBitsG f.width hf v

theorem headD_build {c : Configuration} {p : List Byte} (hp : p ≠ []) : (build c p).headD 0 = p.headD 0 := by
  cases p with
  | nil => exact absurd rfl hp
  | cons b p => rfl

theorem headD_pay {c : Configuration} (hpb : 1 ≤ c.payloadBytes) (b : List Byte) :
    (pay c b 0).headD 0 = b.headD 0 := by
  obtain ⟨k, hk⟩ : ∃ k, c.payloadBytes = k + 1 := ⟨c.payloadBytes - 1, by omega⟩
  cases b <;> simp [pay, hk]

/-! ### Messages of a well-formed heat-pump configuration -/
section
variable {c : Configuration}

theorem length_pay (h : wellFormedConfig c = true) (hv : c.variant = .heatPump) {b : List Byte}
    (hb : b.length = c.msgLen) {v : Nat} (hvs : v ≤ 1) : (pay c b v).length = c.payloadBytes := by
  obtain ⟨-, -, -, hlen⟩ := wf_heatPump h hv
  have hle : v * (c.payloadBytes + 1) ≤ 1 * (c.payloadBytes + 1) := Nat.mul_le_mul_right _ hvs
  simp only [pay, List.length_take, List.length_drop]
  omega

theorem length_plainPayload (h : wellFormedConfig c = true) (hv : c.variant = .heatPump) {b : List Byte}
    (hb : b.length = c.msgLen) {v : Nat} (hvs : v ≤ 1) : (plainPayload c b v).length = c.payloadBytes := by
  unfold plainPayload
  split
  · exact length_pay h hv hb (Nat.zero_le 1)
  · rw [length_complement, length_pay h hv hb hvs]

theorem length_build_of_wf (h : wellFormedConfig c = true) (hv : c.variant = .heatPump) {p : List Byte}
    (hp : p.length = c.payloadBytes) : (build c p).length = c.msgLen := by
  obtain ⟨-, -, -, hlen⟩ := wf_heatPump h hv
  rw [length_build, hp, hlen]

theorem length_blankPayload (hpb : 1 ≤ c.payloadBytes) (b0 : Byte) :
    (blankPayload c b0).length = c.payloadBytes := by
  simp [blankPayload]
  omega

@[simp] theorem length_stamp (c : Configuration) (b : List Byte) : (stamp c b).length = b.length := by simp [stamp]

theorem length_optionMessage (h : wellFormedConfig c = true) (hv : c.variant = .heatPump) {o : Byte} {m : List Byte}
    (hm : optionMessage c o = some m) : m.length = c.msgLen := by
  obtain ⟨-, -, hpb, -⟩ := wf_heatPump h hv
  unfold optionMessage at hm
  split at hm
  · cases hm
    exact length_build_of_wf h hv (by rw [length_putField, length_blankPayload hpb])
  · cases hm

/-- The sample that validates is one of the two, and its payload has the marker. -/
theorem chooseSample_eq_some {b : List Byte} {v : Nat} (h : chooseSample c b = some v) :
    v ≤ 1 ∧ (plainPayload c b v).headD 0 &&& c.markerMask = c.markerValue := by
  have hgood : ∀ {u}, check c b u = .good → (plainPayload c b u).headD 0 &&& c.markerMask = c.markerValue := by
    intro u hu
    unfold check at hu
    split at hu
    · cases hu
    · next hmarker => exact not_not.mp hmarker
  unfold chooseSample at h
  split at h
  · cases h
    exact ⟨Nat.zero_le 1, hgood ‹_›⟩
  · split at h
    · cases h
      exact ⟨Nat.le_refl 1, hgood ‹_›⟩
    · cases h

/-- The reset message has the length of a buffer, for either variant. -/
theorem length_resetMessage (h : wellFormedConfig c = true) : (resetMessage c).length = c.msgLen := by
  cases hv : c.variant with
  | generic => simp [resetMessage, hv]
  | heatPump =>
    obtain ⟨-, -, hpb, -⟩ := wf_heatPump h hv
    rw [resetMessage_of_heatPump hv]
    exact length_build_of_wf h hv (length_blankPayload hpb _)

/-- A marker inside its mask is what the mask shows, whatever stands inside a mask that shares no bit with it. -/
theorem or_and_eq_left {marker kind markerMask kindMask : Byte} (hmarker : marker &&& ~~~markerMask = 0)
    (hkind : kind &&& ~~~kindMask = 0) (hmasks : markerMask &&& kindMask = 0) :
    (marker ||| kind) &&& markerMask = marker := by
  apply BitVec.eq_of_getLsbD_eq
  intro i hi
  have hm := congrArg (·.getLsbD i) hmarker
  have hk := congrArg (·.getLsbD i) hkind
  have hd := congrArg (·.getLsbD i) hmasks
  simp only [BitVec.getLsbD_and, BitVec.getLsbD_or, BitVec.getLsbD_not, hi, decide_true,
    Bool.true_and] at hm hk hd ⊢
  grind

/-- The reset message has the marker, if the marker and the kinds lie inside their masks. -/
theorem marker_resetMessage (h : wellFormedConfig c = true) (hv : c.variant = .heatPump)
    (hfits : instructionByteFits c) : (resetMessage c).headD 0 &&& c.markerMask = c.markerValue := by
  obtain ⟨hmarker, hkinds⟩ := hfits
  have hkind := hkinds c.kindCommand (by simp)
  have hmasks := wf_instructionByte h hv
  rw [resetMessage_of_heatPump hv, headD_build (by simp), List.headD_cons]
  exact or_and_eq_left hmarker hkind hmasks

end

end Sys2Proof.Machine
end

section
/-! SUPPORT. The invariant of the block: what its parts say state by state, and that every effect keeps it
(spec/10_state.md R11 to R15; spec/42_transceiver_rx.md R68; spec/45_scanner.md R113). -/

namespace Sys2Proof.Machine

section
variable {s : State}

/-! ### What the parts of the invariant say, state by state -/

theorem receiverOk_of_preamble (hrx : s.rxState = .preamble) :
    s.receiverOk ↔ s.edgeCount = 0 ∧ s.repeatEdgeCount = 0 ∧ s.received = false := by
  simp [State.receiverOk, hrx]

theorem receiverOk_of_message (hrx : s.rxState = .message) :
    s.receiverOk ↔ s.repeatEdgeCount ≤ s.edgeCount ∧ s.cfg.syncCount ≤ s.edgeCount.toNat ∧
      if s.received then s.edgeCount.toNat = s.cfg.threshold + 1 ∧ s.listening = false
      else s.edgeCount.toNat ≤ s.cfg.threshold := by
  simp [State.receiverOk, hrx]

theorem scannerOk_of_idle (hsc : s.scanState = .idle) :
    s.scannerOk ↔ s.scanIndex ≤ 27 ∧ s.scanRemaining = 0 := by
  simp [State.scannerOk, hsc]

theorem scannerOk_of_stepping (hsc : s.scanState = .stepping) :
    s.scannerOk ↔ s.scanIndex = 0 ∧ 0 < s.scanRemaining ∧ s.scanRemaining ≤ s.cfg.queueLen := by
  simp [State.scannerOk, hsc]

theorem scannerOk_of_awaiting (hsc : s.scanState = .awaitingLabel ∨ s.scanState = .awaitingValue) :
    s.scannerOk ↔ s.scanIndex < 27 ∧ s.scanRemaining = 0 := by
  obtain hsc | hsc := hsc <;> simp [State.scannerOk, hsc]

theorem masked_masked (f : Frame) : f.masked.masked = f.masked := by
  simp [Frame.masked, BitVec.and_assoc]

/-- The ring of an encodable configuration is shorter than a counter can count. -/
theorem ringCap_lt (h : s.Inv) : s.cfg.ringCap < 2 ^ 32 := by
  have hfits := h.configFits
  simp only [Configuration.encodable, List.all_cons, Bool.and_eq_true, fitsU32, decide_eq_true_eq] at hfits
  tauto

/-! ### The operations that keep the invariant -/

theorem inv_inbox (h : s.Inv) (rs : List Request) : { s with inbox := rs }.Inv := { h with }

/-- A construction with a record that is well-formed and that the port can carry (R120). -/
theorem inv_construct {c : Configuration} (hwf : wellFormedConfig c = true) (hfits : c.encodable = true) :
    (State.construct c).Inv where
  config := hwf
  configFits := hfits
  ringLen := List.length_replicate
  wrIdxLt := Nat.zero_lt_of_lt (wf_ring hwf).1
  preambleLt := Nat.zero_lt_of_lt (wf_ring hwf).1
  msgBufLen := List.length_replicate
  tableLen := List.length_replicate
  txIdxLe := Nat.zero_le _
  txIdxLt := fun h => Bool.noConfusion h
  blocked := fun h => Bool.noConfusion h
  receiver := ⟨rfl, rfl, rfl⟩
  cmLen := length_resetMessage hwf
  marker := marker_resetMessage hwf
  shadow := by simp [State.construct, Frame.masked]
  sampler := Nat.one_pos
  frameDone := fun _ => rfl
  scanner := ⟨Nat.zero_le _, rfl⟩
  propsLen := List.length_replicate
  hasupdSplit := fun h => absurd rfl h

/-- The start of the transmission of a buffer. -/
theorem inv_startTransmission (h : s.Inv) {m : List Byte} (hm : m.length = s.cfg.msgLen) :
    (s.startTransmission m).Inv :=
  { h with
    msgBufLen := by simp [hm]
    tableLen := by simp
    txIdxLe := Nat.zero_le _
    txIdxLt := fun _ => wf_tableLen_pos h.config
    blocked := fun _ => rfl }

/-- An owned message of the right length, whose instruction byte is that of the present one or has the marker. -/
theorem inv_cm (h : s.Inv) {m : List Byte} (hm : m.length = s.cfg.msgLen)
    (hmarker : m.headD 0 = s.cm.headD 0 ∨ m.headD 0 &&& s.cfg.markerMask = s.cfg.markerValue) :
    { s with cm := m }.Inv :=
  { h with
    cmLen := hm
    marker := fun hv hfits => hmarker.elim (fun heq => heq ▸ h.marker hv hfits) id }

/-- An owned message built from a payload of the right length. -/
theorem inv_build (h : s.Inv) (hv : s.cfg.variant = .heatPump) {p : List Byte} (hp : p.length = s.cfg.payloadBytes)
    (hmarker : p.headD 0 = s.cm.headD 0 ∨ p.headD 0 &&& s.cfg.markerMask = s.cfg.markerValue) :
    { s with cm := build s.cfg p }.Inv := by
  obtain ⟨-, -, hpb, -⟩ := wf_heatPump h.config hv
  refine inv_cm h (length_build_of_wf h.config hv hp) ?_
  rwa [headD_build (List.ne_nil_of_length_pos (by omega))]

theorem inv_detach (h : s.Inv) : { s with listening := false }.Inv :=
  { h with
    receiver := by
      cases hrx : s.rxState with
      | preamble => exact (receiverOk_of_preamble rfl).mpr ((receiverOk_of_preamble hrx).mp h.receiver)
      | message =>
        obtain ⟨hrepeat, hsync, hcount⟩ := (receiverOk_of_message hrx).mp h.receiver
        refine (receiverOk_of_message rfl).mpr ⟨hrepeat, hsync, ?_⟩
        cases hreceived : s.received with
        | true =>
          simp only [hreceived, if_true] at hcount
          exact ⟨hcount.1, rfl⟩
        | false => simpa [hreceived] using hcount }

theorem inv_drain (h : s.Inv) {buf : List Byte} (hbuf : buf.length = s.cfg.msgLen) : (s.drain buf).Inv :=
  { h with
    msgBufLen := hbuf
    receiver := ⟨rfl, rfl, rfl⟩ }

theorem inv_enterPass (h : s.Inv) : s.enterPass.Inv :=
  { h with
    scanner := by
      by_cases hq : 0 < s.cfg.queueLen
      · exact (scannerOk_of_stepping (by simp [hq])).mpr ⟨rfl, hq, Nat.le_refl _⟩
      · exact (scannerOk_of_awaiting (by simp [hq])).mpr ⟨by simp, Nat.eq_zero_of_not_pos hq⟩
    propsLen := List.length_replicate }

theorem inv_storeEdge (h : s.Inv) (now : Word) : (s.storeEdge now).Inv :=
  { h with
    ringLen := by simp [h.ringLen]
    wrIdxLt := Nat.mod_lt _ (Nat.zero_lt_of_lt h.wrIdxLt) }

/-- A sync that is found counts its own edges, which are at most `T` (R68). -/
theorem inv_searchSync (h : s.Inv) (hrx : s.rxState = .preamble) : s.searchSync.Inv := by
  obtain ⟨-, heq⟩ | ⟨-, heq⟩ := searchSync_cases s <;> rw [heq]
  · have hring := ringCap_lt h
    have hthreshold := (wf_ring h.config).2
    have hsync : s.cfg.syncCount ≤ s.cfg.threshold := Nat.le_add_left _ _
    have hcount : (BitVec.ofNat 32 s.cfg.syncCount).toNat = s.cfg.syncCount :=
      Nat.mod_eq_of_lt (by omega)
    obtain ⟨-, hrepeat, hreceived⟩ := (receiverOk_of_preamble hrx).mp h.receiver
    exact { h with
      preambleLt := Nat.mod_lt _ (Nat.zero_lt_of_lt h.wrIdxLt)
      receiver := (receiverOk_of_message rfl).mpr
        ⟨by simp [hrepeat], hcount.ge, by simp [hreceived, hcount, hsync]⟩ }
  · exact h

/-- An edge counted in state Message: the counter cannot wrap, and the edge past `T` sets the pending flag (R68). -/
theorem inv_countEdge (h : s.Inv) (hrx : s.rxState = .message) (hreceived : s.received = false) : s.countEdge.Inv :=
  { h with
    receiver := by
      have hring := ringCap_lt h
      have hthreshold := (wf_ring h.config).2
      obtain ⟨hrepeat, hsync, hcount⟩ := (receiverOk_of_message hrx).mp h.receiver
      simp only [hreceived, Bool.false_eq_true, if_false] at hcount
      have hnext : (s.edgeCount + 1).toNat = s.edgeCount.toNat + 1 := by bv_omega
      rw [receiverOk_of_message (by simpa using hrx)]
      simp only [State.countEdge_cfg, State.countEdge_edgeCount, State.countEdge_repeatEdgeCount,
        State.countEdge_received, State.countEdge_listening, hnext]
      refine ⟨?_, by omega, ?_⟩
      · split <;> bv_omega
      · by_cases hlast : s.cfg.threshold < s.edgeCount.toNat + 1
        · simp only [hlast, if_true, and_true]
          omega
        · simp only [hlast, hreceived, if_false, Bool.false_eq_true]
          omega }

/-- The bit sampled next goes to the first free place of the byte in progress. -/
theorem sample_lt (h : s.dByte.toNat < 2 ^ s.dBitPos.val) (d : Bool) :
    (s.sample d).toNat < 2 ^ (s.dBitPos.val + 1) := by
  have hpos : 2 ^ s.dBitPos.val < 2 ^ (s.dBitPos.val + 1) := Nat.pow_lt_pow_succ (by decide)
  have hbit : ((if d then 1#8 else 0) <<< s.dBitPos.val).toNat ≤ 2 ^ s.dBitPos.val := by
    cases d
    · simp
    · simpa [BitVec.toNat_shiftLeft, Nat.one_shiftLeft] using Nat.mod_le _ _
  rw [State.sample, BitVec.toNat_or]
  exact Nat.or_lt_two_pow (h.trans hpos) (hbit.trans_lt hpos)

/-! ### Every effect keeps the invariant -/

/-- Whatever an operation with operands its port can carry does to a state that meets the invariant, the result meets
it. -/
theorem Effect.inv {i : Instr} {t : State} (he : Effect s i t) (h : s.Inv) (hi : i.wellFormed s.cfg = true) :
    t.Inv := by
  induction he with
  | stay => exact h
  | respond st r _ ih => exact { ih with }
  | construct c hc hwf =>
    subst hc
    exact { inv_construct hwf hi with }
  | transmit m hm _ =>
    subst hm
    exact inv_startTransmission h (isBuffer_iff.mp hi)
  | transmitWaiting m hm _ =>
    subst hm
    exact { inv_startTransmission h (isBuffer_iff.mp hi) with blocked := fun _ => rfl }
  | attach =>
    exact { h with
      ringLen := List.length_replicate
      wrIdxLt := Nat.zero_lt_of_lt h.wrIdxLt
      preambleLt := Nat.zero_lt_of_lt h.wrIdxLt
      msgBufLen := List.length_replicate
      receiver := ⟨rfl, rfl, rfl⟩ }
  | detach => exact inv_detach h
  | drain buf _ _ hbuf => exact inv_drain h hbuf
  | adopt b now v x hx hv hchoose =>
    obtain ⟨hv1, hmarker⟩ := chooseSample_eq_some hchoose
    have hlen : x.length = s.cfg.msgLen := by
      obtain ⟨rfl, rfl⟩ | ⟨rfl, rfl⟩ := hx
      · exact isBuffer_iff.mp hi
      · rw [length_stamp]
        exact isBuffer_iff.mp hi
    exact { inv_build h hv (length_plainPayload h.config hv hlen hv1) (.inr hmarker) with }
  | normalise _ hv =>
    obtain ⟨-, -, hpb, -⟩ := wf_heatPump h.config hv
    exact inv_build h hv (length_pay h.config hv h.cmLen (Nat.zero_le 1)) (.inl (headD_pay hpb s.cm))
  | field f v _ hv hf u _ _ ih =>
    refine inv_cm ih ?_ (.inl (headD_putField ?_ _ _))
    · rw [length_putField, ih.cmLen]
    · exact (wf_field h.config hv f hf).2.1
  | attachDisplay => exact { h with sampler := Nat.one_pos, frameDone := fun _ => rfl }
  | detachDisplay => exact { h with }
  | shadow _ raw => exact { h with shadow := masked_masked raw, hasupdSplit := fun hne => absurd rfl hne }
  | taken => exact { h with hasupdSplit := fun hne => absurd rfl hne }
  | split _ hsplit => exact { h with hasupdSplit := fun _ => hsplit }
  | phase _ hne => exact { h with hasupdSplit := fun _ => h.hasupdSplit hne }
  | splitShadow _ _ raw => exact { h with shadow := masked_masked raw, hasupdSplit := fun hne => absurd rfl hne }
  | enterPass => exact inv_enterPass h
  | queued now m _ hsc _ hv hm =>
    obtain ⟨hindex, -, hle⟩ := (scannerOk_of_stepping hsc).mp h.scanner
    exact { inv_startTransmission h (length_optionMessage h.config hv hm) with
      scanner := by
        by_cases hlast : s.scanRemaining - 1 = 0
        · exact (scannerOk_of_awaiting (.inl (if_pos hlast))).mpr ⟨by simp [hindex], hlast⟩
        · exact (scannerOk_of_stepping (if_neg hlast)).mpr ⟨hindex, Nat.pos_of_ne_zero hlast, by dsimp; omega⟩ }
  | label now _ hsc =>
    exact { h with scanner := (scannerOk_of_awaiting (.inr rfl)).mpr ((scannerOk_of_awaiting (.inl hsc)).mp h.scanner) }
  | labelAgain => exact { h with }
  | lastValue now m x _ hsc _ hv hm _ =>
    obtain ⟨hindex, hzero⟩ := (scannerOk_of_awaiting (.inr hsc)).mp h.scanner
    exact { inv_startTransmission h (length_optionMessage h.config hv hm) with
      scanner := (scannerOk_of_idle rfl).mpr ⟨hindex, hzero⟩
      propsLen := by rw [List.length_set, h.propsLen] }
  | value now m x _ hsc _ hv hm hnext =>
    obtain ⟨-, hzero⟩ := (scannerOk_of_awaiting (.inr hsc)).mp h.scanner
    exact { inv_startTransmission h (length_optionMessage h.config hv hm) with
      scanner := (scannerOk_of_awaiting (.inl rfl)).mpr ⟨hnext, hzero⟩
      propsLen := by rw [List.length_set, h.propsLen] }
  | search now _ _ _ hrx => exact inv_searchSync (inv_storeEdge h now) hrx
  | count now _ _ hreceived hrx => exact inv_countEdge (inv_storeEdge h now) hrx hreceived
  | nextEntry _ _ hnext => exact { h with txIdxLe := Nat.le_of_lt hnext, txIdxLt := fun _ => hnext }
  | lastEntry _ hactive =>
    exact { h with
      txIdxLe := h.txIdxLt hactive
      txIdxLt := fun hoff => Bool.noConfusion hoff
      blocked := fun hoff => Bool.noConfusion hoff }
  | bit d _ hwaiting hpos =>
    exact { h with
      sampler := by
        have hnext : (s.dBitPos + 1).val = s.dBitPos.val + 1 := Fin.val_add_one_of_lt' (by omega)
        exact hnext ▸ sample_lt h.sampler d
      frameDone := fun hdone => absurd hdone hwaiting }
  | byte => exact { h with sampler := Nat.one_pos, frameDone := fun _ => rfl }
  | strobe => exact { h with sampler := Nat.one_pos, frameDone := fun _ => rfl }
  | message => exact { h with }

end

end Sys2Proof.Machine
end

section
/-! SUPPORT. Who writes the codec's state (spec/10_state.md R13), the status words (R19) and the padding bits of a
buffer (R12). -/

namespace Sys2Proof.Machine

/-! ### The codec's state -/

@[simp] theorem State.searchSync_cm (s : State) : s.searchSync.cm = s.cm := by
  obtain ⟨-, heq⟩ | ⟨-, heq⟩ := searchSync_cases s <;> rw [heq]

/-- An effect on the owned message comes from an operation that may write it. -/
theorem Effect.cm_eq {s t : State} {i : Instr} (he : Effect s i t) (hi : writesMessage i = false) : t.cm = s.cm := by
  induction he with
  | respond st r _ ih => exact ih
  | construct c hc =>
    subst hc
    cases hi
  | adopt b now v x hx =>
    obtain ⟨rfl, -⟩ | ⟨rfl, -⟩ := hx <;> cases hi
  | normalise hg =>
    subst hg
    cases hi
  | field f v hw =>
    rw [hw] at hi
    cases hi
  | search => simp
  | _ => rfl

/-- The codec's record of the last adopted message. -/
def State.adoption (s : State) : Word × Word × Bool := (s.seqNo, s.lastSampleTime, s.validSample)

theorem State.searchSync_adoption (s : State) : s.searchSync.adoption = s.adoption := by
  obtain ⟨-, heq⟩ | ⟨-, heq⟩ := searchSync_cases s <;> rw [heq]
  rfl

/-- An effect on that record comes from an operation that may write it. -/
theorem Effect.adoption_eq {s t : State} {i : Instr} (he : Effect s i t) (hi : adoptsMessage i = false) :
    t.adoption = s.adoption := by
  induction he with
  | respond st r _ ih => exact ih
  | field f v _ _ _ u _ _ ih => exact ih
  | construct c hc =>
    subst hc
    cases hi
  | adopt b now v x hx =>
    obtain ⟨rfl, -⟩ | ⟨rfl, -⟩ := hx <;> cases hi
  | search => exact State.searchSync_adoption _
  | _ => rfl

/-! ### The status words -/

/-- A flag is its bit and no other. -/
theorem getLsbD_flagAt (b : Bool) {k : Nat} (hk : k < 32) (j : Nat) :
    (flagAt b k).getLsbD j = (b && decide (j = k)) := by
  cases b with
  | false => simp [flagAt]
  | true =>
    have hmsb : (1#32 <<< k).getLsbD j = decide (j = k) := by
      rw [← BitVec.twoPow_eq, BitVec.getLsbD_twoPow]
      grind
    simpa [flagAt] using hmsb

/-- The scanner's two bits, each a flag. -/
theorem scanCode_eq_flags (x : ScanState) :
    scanCode x <<< 8 = flagAt (decide (x = .stepping ∨ x = .awaitingValue)) 8 |||
      flagAt (decide (x = .awaitingLabel ∨ x = .awaitingValue)) 9 := by
  cases x <;> decide

/-- The status words as a list behind the selector (R19). -/
theorem statusWord_eq (s : State) (sel : Byte) :
    s.statusWord sel =
      ([s.flags, s.edgeCount, s.repeatEdgeCount, BitVec.ofNat 32 s.wrIdx, BitVec.ofNat 32 s.preambleIdx,
        BitVec.ofNat 32 s.txIdx, s.txCompare, s.lastEdgeTime, BitVec.ofNat 32 s.scanIndex,
        BitVec.ofNat 32 s.scanRemaining, BitVec.ofNat 32 (s.dBytePos.val * 8 + s.dBitPos.val)] :
        List Word)[sel.toNat]? := by
  unfold State.statusWord
  generalize sel.toNat = n
  split
  case h_12 =>
    have hlen : 11 ≤ n := by grind
    exact (List.getElem?_eq_none hlen).symm
  all_goals rfl

/-- FLAGS, bit by bit (R19). -/
theorem getLsbD_flags (s : State) (j : Nat) :
    s.flags.getLsbD j =
      (s.listening && decide (j = 0) || s.received && decide (j = 1) ||
        decide (s.rxState = .message) && decide (j = 2) || s.txActive && decide (j = 3) ||
        s.txPin && decide (j = 4) || s.dListening && decide (j = 5) || s.dReady && decide (j = 6) ||
        s.validSample && decide (j = 7) ||
        (decide (s.scanState = .stepping ∨ s.scanState = .awaitingValue) && decide (j = 8) ||
          decide (s.scanState = .awaitingLabel ∨ s.scanState = .awaitingValue) && decide (j = 9)) ||
        s.passDone && decide (j = 10)) := by
  simp only [State.flags, scanCode_eq_flags, BitVec.getLsbD_or, getLsbD_flagAt, Nat.reduceLT, beq_eq_decide]

/-- Bits 31..11 of FLAGS are zero. -/
theorem flags_unused (s : State) {k : Nat} (hk : 11 ≤ k) : s.flags.getLsbD k = false := by
  have hne : ∀ n ≤ 10, k ≠ n := by omega
  simp [getLsbD_flags, hne]

/-! ### The padding bits -/

/-- A bit past the end of the buffer reads 0. -/
theorem getBitG_of_length_le {buf : List Byte} {g : Nat} (hg : buf.length ≤ g / 8) : getBitG buf g = false := by
  rw [getBitG_eq, List.getD_eq_default _ _ hg]
  simp

/-- The mask of the `k` used bits of a last byte. -/
theorem getLsbD_usedMask {k j : Nat} (hk : k < 8) (hj : j < 8) :
    (0xFF#8 <<< (8 - k)).getLsbD (7 - j) = decide (j < k) := by
  have key : ∀ k < 8, ∀ j < 8, (0xFF#8 <<< (8 - k)).getLsbD (7 - j) = decide (j < k) := by decide
  exact key k hk j hj

/-- Clearing the padding keeps the used bits and reads 0 past them. -/
theorem getBitG_clearPadding {n : Nat} {buf : List Byte} (hlen : buf.length = (n + 7) / 8) (g : Nat) :
    getBitG (clearPadding n buf) g = (decide (g < n) && getBitG buf g) := by
  by_cases hend : (n + 7) / 8 ≤ g / 8
  · rw [getBitG_of_length_le (by rw [length_clearPadding, hlen]; exact hend),
      getBitG_of_length_le (by rw [hlen]; exact hend), Bool.and_false]
  unfold clearPadding
  split
  · next hwhole => simp [show g < n by omega]
  · next hpart =>
    have hmask := getLsbD_usedMask (Nat.mod_lt n (by decide)) (Nat.mod_lt g (by decide : 0 < 8))
    rw [getBitG_eq, getBitG_eq]
    by_cases hbyte : n / 8 = g / 8
    · have hused : g % 8 < n % 8 ↔ g < n := by omega
      have hlt : g / 8 < buf.length := by omega
      simp only [List.getD_eq_getElem?_getD, List.getElem?_modify, hbyte, if_true, List.getElem?_eq_getElem hlt,
        Option.map_eq_map, Option.map_some, Option.getD_some, BitVec.getLsbD_and, hmask, hused, Bool.and_comm]
    · simp [List.getD_eq_getElem?_getD, hbyte, show g < n by omega]

end Sys2Proof.Machine
end

section
/-! CERTIFICATE. The statements about the state, settled from the lemmas above. -/

namespace Sys2Proof.Machine

/-- Settles O9: a step is an effect of some operation on a state that differs by its inbox alone, and every effect keeps
the invariant. -/
theorem everyStepKeepsTheInvariant : Obligations.EveryStepKeepsTheInvariant := by
  intro s t h hstep
  obtain ⟨rs, i, hi, he⟩ := step_effect hstep
  exact he.inv (inv_inbox h rs) hi

/-- Settles O11: no effect of another operation writes the message or the record of its adoption. -/
theorem onlyTheCodecWritesTheCodec : Obligations.OnlyTheCodecWritesTheCodec := by
  intro i s t h
  have he := exec_effect s i t h
  refine ⟨he.cm_eq, fun hi => ?_⟩
  simpa [State.adoption] using he.adoption_eq hi

/-- Settles O15: the selector picks a word of the list, and FLAGS is read bit by bit. -/
theorem statusReadsItsWords : Obligations.StatusReadsItsWords := by
  intro s sel
  refine ⟨s.flags, ?_, ?_⟩
  · simp only [exec, execStatus, ← statusWord_eq]
    cases s.statusWord sel <;> rfl
  · refine ⟨?_, ?_, ?_, ?_, ?_, ?_, ?_, ?_, ?_, ?_, ?_, fun k => flags_unused s⟩ <;> rw [getLsbD_flags] <;> simp

/-- Settles O22: the two answers of a busy and of a free transmitter, and the bits that clearing the padding keeps. -/
theorem sendStartsATransmission : Obligations.SendStartsATransmission := by
  intro m s
  refine ⟨fun hbusy => ?_, fun hfree => ?_, fun hlen => ⟨?_, getBitG_clearPadding hlen⟩⟩
  · simp [exec, execSend, execSendW, hbusy, State.respond]
  · simp [exec, execSend, execSendW, hfree, State.respond, State.startTransmission]
  · rw [length_clearPadding, hlen]

end Sys2Proof.Machine
end

section
/-! SUPPORT. What stays for as long as nothing is constructed: the configuration, and the pulse table of a transmission
in progress (spec/20_memory.md R34, spec/41_transceiver_tx.md R60). -/

namespace Sys2Proof.Machine

@[simp] theorem State.searchSync_cfg (s : State) : s.searchSync.cfg = s.cfg := by
  obtain ⟨-, heq⟩ | ⟨-, heq⟩ := searchSync_cases s <;> rw [heq]

@[simp] theorem State.searchSync_txTable (s : State) : s.searchSync.txTable = s.txTable := by
  obtain ⟨-, heq⟩ | ⟨-, heq⟩ := searchSync_cases s <;> rw [heq]

/-- Only a construction brings another configuration. -/
theorem Effect.cfg_eq {s t : State} {i : Instr} (he : Effect s i t) (hi : ∀ c, i ≠ .reset c) : t.cfg = s.cfg := by
  induction he with
  | respond st r _ ih => exact ih
  | construct c hc => exact absurd hc (hi c)
  | field f v _ _ _ u _ hcfg => exact hcfg
  | search => simp
  | _ => rfl

/-- The table is written by a construction and by the start of a transmission, which finds the transmitter free. -/
theorem Effect.txTable_eq {s t : State} {i : Instr} (he : Effect s i t) (hi : ∀ c, i ≠ .reset c)
    (hactive : s.txActive = true) : t.txTable = s.txTable := by
  have busy {p : Prop} (hfree : s.txActive = false) : p := by simp [hactive] at hfree
  induction he with
  | respond st r _ ih => exact ih
  | field f v _ _ _ u _ _ ih => exact ih
  | construct c hc => exact absurd hc (hi c)
  | transmit m _ hfree => exact busy hfree
  | transmitWaiting m _ hfree => exact busy hfree
  | queued now m _ _ hfree => exact busy hfree
  | lastValue now m x _ _ hfree => exact busy hfree
  | value now m x _ _ hfree => exact busy hfree
  | search => simp
  | _ => rfl

end Sys2Proof.Machine
end

section
/-! SUPPORT. HASUPD, phase by phase, and the judgement of the frame it has read (spec/20_memory.md R32,
spec/44_display.md R108). -/

namespace Sys2Proof.Machine

variable {s : State}

/-! ### The judgement of a frame -/

theorem shown_iff (f : Frame) (blank : Byte) : f.shown blank = true ↔ f.b0 ≠ blank ∧ f.b1 ≠ blank := by
  simp [Frame.shown]

/-- A changed frame that shows both digits is adopted. -/
theorem judgeFrame_of_adopted {raw : Frame} (hnew : raw.masked ≠ s.dShadow) (h0 : raw.masked.b0 ≠ s.cfg.blankCode)
    (h1 : raw.masked.b1 ≠ s.cfg.blankCode) :
    s.judgeFrame raw = .next ({ s with dShadow := raw.masked }.respond .ok (.bit true)) :=
  if_pos ⟨hnew, (shown_iff _ _).mpr ⟨h0, h1⟩⟩

/-- A frame as before, or one with a blank digit, is not. -/
theorem judgeFrame_of_ignored {raw : Frame}
    (h : raw.masked = s.dShadow ∨ raw.masked.b0 = s.cfg.blankCode ∨ raw.masked.b1 = s.cfg.blankCode) :
    s.judgeFrame raw = .next (s.respond .ok (.bit false)) := by
  refine if_neg ?_
  rw [shown_iff]
  tauto

/-- The judgement does not ask whether HASUPD takes one step or four. -/
theorem judgeFrame_atomic (s : State) (raw : Frame) (atomic : Bool) :
    ∃ t, s.judgeFrame raw = .next t ∧
      { s with cfg := { s.cfg with hasupdAtomic := atomic } }.judgeFrame raw =
        .next { t with cfg := { s.cfg with hasupdAtomic := atomic } } := by
  by_cases h : raw.masked ≠ s.dShadow ∧ raw.masked.shown s.cfg.blankCode = true
  · exact ⟨_, if_pos h, if_pos h⟩
  · exact ⟨_, if_neg h, if_neg h⟩

/-! ### The phases -/

theorem exec_hasupd_of_notReady (hidle : s.hasupd = .idle) (hready : s.dReady = false) :
    exec .hasupd s = .next (s.respond .ok (.bit false)) := by
  simp [exec, execHasupd, hidle, hready]

theorem exec_hasupd_of_atomic (hidle : s.hasupd = .idle) (hatomic : s.cfg.hasupdAtomic = true)
    (hready : s.dReady = true) : exec .hasupd s = { s with dReady := false }.judgeFrame s.dRaw := by
  simp [exec, execHasupd, hidle, hatomic, hready]

theorem exec_hasupd_of_ready (hidle : s.hasupd = .idle) (hsplit : s.cfg.hasupdAtomic = false)
    (hready : s.dReady = true) : exec .hasupd s = .next { s with dReady := false, hasupd := .cleared } := by
  simp [exec, execHasupd, hidle, hsplit, hready]

theorem exec_hasupd_of_cleared (h : s.hasupd = .cleared) :
    exec .hasupd s = .next { s with hasupd := .read0 s.dRaw.b0 } := by
  simp [exec, execHasupd, h]

theorem exec_hasupd_of_read0 {x : Byte} (h : s.hasupd = .read0 x) :
    exec .hasupd s = .next { s with hasupd := .read1 x s.dRaw.b1 } := by
  simp [exec, execHasupd, h]

theorem exec_hasupd_of_read1 {x y : Byte} (h : s.hasupd = .read1 x y) :
    exec .hasupd s = { s with hasupd := .idle }.judgeFrame ⟨x, y, s.dRaw.b2⟩ := by
  simp [exec, execHasupd, h]

/-! ### The phases as steps -/

/-- An inbox with no event, wire message or host turn at its head holds nothing, or a command there. -/
theorem empty_or_command {rs : List Request} (h : ∀ r ∈ rs.head?, isCommand r = true) :
    rs = [] ∨ ∃ b rest, rs = .command b :: rest := by
  cases rs with
  | nil => exact .inl rfl
  | cons r rest =>
    have hr : isCommand r = true := h r rfl
    cases r with
    | command b => exact .inr ⟨b, rest, rfl⟩
    | event | wire | turn => cases hr

section
variable (hin : s.inbox = [] ∨ ∃ b rest, s.inbox = .command b :: rest)
include hin

theorem step_of_cleared (h : s.hasupd = .cleared) : step s = .next { s with hasupd := .read0 s.dRaw.b0 } :=
  (step_of_split hin (by simp [h])).trans (exec_hasupd_of_cleared h)

theorem step_of_read0 {x : Byte} (h : s.hasupd = .read0 x) :
    step s = .next { s with hasupd := .read1 x s.dRaw.b1 } :=
  (step_of_split hin (by simp [h])).trans (exec_hasupd_of_read0 h)

theorem step_of_read1 {x y : Byte} (h : s.hasupd = .read1 x y) :
    step s = { s with hasupd := .idle }.judgeFrame ⟨x, y, s.dRaw.b2⟩ :=
  (step_of_split hin (by simp [h])).trans (exec_hasupd_of_read1 h)

end

end Sys2Proof.Machine
end

section
/-! CERTIFICATE. The statements about what decodes, what stays and the split HASUPD, settled from the lemmas above. -/

namespace Sys2Proof.Machine

/-- Settles O2: each reader yields operands of the asked shape, port by port. -/
theorem decodedOperationsAreWellFormed : Obligations.DecodedOperationsAreWellFormed := by
  intro c r i h
  exact wellFormed_of_decode h

/-- Settles O10: no effect but a construction brings a configuration, and none but the start of a transmission, which
needs a free transmitter, another table. -/
theorem runningTableAndDescriptorStay : Obligations.RunningTableAndDescriptorStay := by
  intro i s t hi h
  have he := exec_effect s i t h
  exact ⟨he.cfg_eq hi, he.txTable_eq hi⟩

/-- Settles O53: a lemma per phase; four steps then judge, in the state that one step judges in, the frame it judges. -/
theorem splitHasupdReadsByteByByte : Obligations.SplitHasupdReadsByteByByte := by
  constructor
  · intro s
    refine ⟨fun hidle hsplit => ?_, exec_hasupd_of_cleared, fun x => exec_hasupd_of_read0, fun x y hread => ?_⟩
    · split
      · next hready => exact exec_hasupd_of_ready hidle hsplit hready
      · next hready => exact exec_hasupd_of_notReady hidle (Bool.eq_false_of_not_eq_true hready)
    · intro f
      rw [exec_hasupd_of_read1 hread]
      exact ⟨fun hnew h0 h1 => judgeFrame_of_adopted hnew h0 h1, fun h => judgeFrame_of_ignored h⟩
  · intro s hidle hblocked hsplit hready b rest hin hrest
    have hwait := empty_or_command hrest
    have hfirst : step s = .next { s with inbox := rest, dReady := false, hasupd := .cleared } := by
      rw [step_of_decoded (i := .hasupd) hin rfl (.inl ⟨hblocked, hidle⟩)]
      exact exec_hasupd_of_ready hidle hsplit hready
    obtain ⟨s4, hjudge, hatomic⟩ :=
      judgeFrame_atomic { s with inbox := rest, dReady := false, hasupd := .idle } s.dRaw true
    refine ⟨_, _, _, s4, hfirst, step_of_cleared hwait rfl, step_of_read0 hwait rfl,
      (step_of_read1 hwait rfl).trans hjudge, rfl, rfl, rfl, ?_⟩
    simpa only [exec_hasupd_of_atomic, hidle, hready] using hatomic

end Sys2Proof.Machine
end

section
/-! SUPPORT. What the encoder packs, the readers read back, whatever bytes follow (notes/assumptions/2.md): one lemma
per operand shape, each passed on to the shapes that contain it. -/

namespace Sys2Proof

/-! ### Numbers -/

@[simp] theorem readByte_cons (b : Byte) (rest : List Byte) : readByte (b :: rest) = some (b, rest) := rfl

@[simp] theorem readNat_putNat {n : Nat} (h : fitsU32 n = true) (rest : List Byte) :
    readNat (putNat n ++ rest) = some (n, rest) := by
  have hn : n < 2 ^ 32 := by simpa [fitsU32] using h
  simpa [readNat, putNat] using hn

@[simp] theorem readInt_putInt {t : Int} (h : fitsInt32 t = true) (rest : List Byte) :
    readInt (putInt t ++ rest) = some (t, rest) := by
  have ht : -2 ^ 31 ≤ t ∧ t < 2 ^ 31 := by simpa [fitsInt32] using h
  have hback : (BitVec.ofInt 32 t).toInt = t := BitVec.toInt_ofInt_eq_self (by decide) ht.1 ht.2
  simp [readInt, putInt, hback]

@[simp] theorem readBool_putBool (b : Bool) (rest : List Byte) : readBool (putBool b ++ rest) = some (b, rest) := by
  cases b <;> rfl

@[simp] theorem readOptionalWord_putOptionalWord (w : Option Word) (rest : List Byte) :
    readOptionalWord (putOptionalWord w ++ rest) = some (w, rest) := by
  cases w <;> simp [readOptionalWord, putOptionalWord]

/-! ### Lists -/

section
variable {α : Type} {r : Reader α} {p : α → List Byte}

theorem readTimes_flatMap {as : List α} (hr : ∀ a ∈ as, ∀ rest, r (p a ++ rest) = some (a, rest))
    (rest : List Byte) : readTimes r as.length (as.flatMap p ++ rest) = some (as, rest) := by
  induction as with
  | nil => rfl
  | cons a as ih =>
    obtain ⟨ha, has⟩ := List.forall_mem_cons.mp hr
    simp [readTimes, ha, ih has]

theorem readList_putList {as : List α} (hlen : fitsU32 as.length = true)
    (hr : ∀ a ∈ as, ∀ rest, r (p a ++ rest) = some (a, rest)) (rest : List Byte) :
    readList r (putList p as ++ rest) = some (as, rest) := by
  simp [readList, putList, hlen, readTimes_flatMap hr]

end

@[simp] theorem readList_putBytes {bs : List Byte} (hlen : fitsU32 bs.length = true) (rest : List Byte) :
    readList readByte (putList (fun b => [b]) bs ++ rest) = some (bs, rest) :=
  readList_putList hlen (fun _ _ _ => rfl) rest

/-! ### Texts and enumerations -/

theorem readText_putText {t : List Ch} (h : t.length ≤ 4) (rest : List Byte) :
    readText (putText t ++ rest) = some (t, rest) := by
  have hcount : t.length % 256 = t.length := by omega
  have hbytes : (t ++ List.replicate (4 - t.length) 0).length = 4 := by simp; omega
  have hread := readBuffer_append (t ++ List.replicate (4 - t.length) 0) rest
  rw [hbytes] at hread
  simp only [readText, putText, List.cons_append, readByte_cons, Option.bind_eq_bind, Option.bind_some, hread]
  simp [hcount]

theorem readMode_putMode (m : Option Mode) (rest : List Byte) : readMode (putMode m ++ rest) = some (m, rest) := by
  obtain _ | m := m
  · rfl
  · cases m <;> rfl

theorem readFan_putFan (f : Option Fan) (rest : List Byte) : readFan (putFan f ++ rest) = some (f, rest) := by
  obtain _ | f := f
  · rfl
  · cases f <;> rfl

@[simp] theorem readFmState_putFmState (st : Option FmState) (rest : List Byte) :
    readFmState (putFmState st ++ rest) = some (st, rest) := by
  obtain _ | st := st
  · rfl
  · cases st <;> rfl

/-! ### The parts of a configuration record -/

/-- One reader's turn in a bundle: the rest of the bundle goes on from what it read. -/
theorem bind_of_read {α β : Type} {o : Option α} {k : α → Option β} {a : α} {y : Option β} (hread : o = some a)
    (hrest : k a = y) : (o >>= k) = y := by
  subst hread
  exact hrest

@[simp] theorem readWindow_putWindow (w : Window) (rest : List Byte) :
    readWindow (putWindow w ++ rest) = some (w, rest) := by
  simp [readWindow, putWindow]

@[simp] theorem readChecksum_putChecksum {x : ChecksumChoice} (h : x.encodable = true) (rest : List Byte) :
    readChecksum (putChecksum x ++ rest) = some (x, rest) := by
  cases x with
  | ref => rfl
  | other n =>
    have hn : fitsU32 (n + 1) = true := h
    simp [readChecksum, putChecksum, hn]

@[simp] theorem readField_putFieldPlace {f : Field} (h : f.encodable = true) (rest : List Byte) :
    readField (putFieldPlace f ++ rest) = some (f, rest) := by
  simp only [Field.encodable, Bool.and_eq_true] at h
  simp [readField, putFieldPlace, h]

@[simp] theorem readFieldMap_putFieldMap {m : FieldMap} (h : m.encodable = true) (rest : List Byte) :
    readFieldMap (putFieldMap m ++ rest) = some (m, rest) := by
  simp only [FieldMap.encodable, List.all_cons, List.all_nil, Bool.and_true, Bool.and_eq_true] at h
  obtain ⟨hpower, hsleep, hmode, hfan, htemp, hstatus, htime, hoption, hfmState, hfmTemp⟩ := h
  simp only [putFieldMap, List.append_assoc]
  exact bind_of_read (readField_putFieldPlace hpower _) <| bind_of_read (readField_putFieldPlace hsleep _) <|
    bind_of_read (readField_putFieldPlace hmode _) <| bind_of_read (readField_putFieldPlace hfan _) <|
    bind_of_read (readField_putFieldPlace htemp _) <| bind_of_read (readField_putFieldPlace hstatus _) <|
    bind_of_read (readField_putFieldPlace htime _) <| bind_of_read (readField_putFieldPlace hoption _) <|
    bind_of_read (readField_putFieldPlace hfmState _) <| bind_of_read (readField_putFieldPlace hfmTemp _) rfl

@[simp] theorem readModeCode_putModeCode {m : ModeCode}
    (h : [m.auto, m.cool, m.dry, m.heat, m.fan].all fitsU32 = true) (rest : List Byte) :
    readModeCode (putModeCode m ++ rest) = some (m, rest) := by
  simp only [List.all_cons, List.all_nil, Bool.and_true, Bool.and_eq_true] at h
  simp [readModeCode, putModeCode, h]

@[simp] theorem readFanCode_putFanCode {m : FanCode} (h : [m.auto, m.low, m.medium, m.high].all fitsU32 = true)
    (rest : List Byte) : readFanCode (putFanCode m ++ rest) = some (m, rest) := by
  simp only [List.all_cons, List.all_nil, Bool.and_true, Bool.and_eq_true] at h
  simp [readFanCode, putFanCode, h]

@[simp] theorem readFmStateCode_putFmStateCode {m : FmStateCode} (h : [m.start, m.update, m.stop].all fitsU32 = true)
    (rest : List Byte) : readFmStateCode (putFmStateCode m ++ rest) = some (m, rest) := by
  simp only [List.all_cons, List.all_nil, Bool.and_true, Bool.and_eq_true] at h
  simp [readFmStateCode, putFmStateCode, h]

theorem readSegEntry_putSegEntry {e : Byte × List Ch} (h : fitsU32 e.2.length = true) (rest : List Byte) :
    readSegEntry (putSegEntry e ++ rest) = some (e, rest) := by
  simp [readSegEntry, putSegEntry, h]

theorem readSegTable_putSegTable {es : List (Byte × List Ch)} (hlen : fitsU32 es.length = true)
    (h : es.all (fun e => fitsU32 e.2.length) = true) (rest : List Byte) :
    readList readSegEntry (putList putSegEntry es ++ rest) = some (es, rest) :=
  readList_putList hlen (fun e he => readSegEntry_putSegEntry (List.all_eq_true.mp h e he)) rest

theorem readLabels_putLabels {ls : List (List Ch)} (hlen : fitsU32 ls.length = true)
    (h : ls.all (fun l => fitsU32 l.length) = true) (rest : List Byte) :
    readList (readList readByte) (putList (putList fun b => [b]) ls ++ rest) = some (ls, rest) :=
  readList_putList hlen (fun l hl => readList_putBytes (List.all_eq_true.mp h l hl)) rest

theorem readWindows_putWindows {ws : List Window} (hlen : fitsU32 ws.length = true) (rest : List Byte) :
    readList readWindow (putList putWindow ws ++ rest) = some (ws, rest) :=
  readList_putList hlen (fun w _ => readWindow_putWindow w) rest

/-- The variant is told by one bit. -/
theorem variant_of_bit (v : Variant) : (if (v == .heatPump) = true then Variant.heatPump else .generic) = v := by
  cases v <;> rfl

/-- The recovery policy is told by one bit. -/
theorem malformedPolicy_of_bit (x : MalformedPolicy) :
    (if (x == .restartCount) = true then MalformedPolicy.restartCount else .abort) = x := by
  cases x <;> rfl

theorem readConfig_putConfig {c : Configuration} (h : c.encodable = true) (rest : List Byte) :
    readConfig (putConfig c ++ rest) = some (c, rest) := by
  simp only [Configuration.encodable, List.all_cons, List.all_nil, Bool.and_true, Bool.and_eq_true] at h
  obtain ⟨⟨⟨⟨⟨hcounts, htemps⟩, hfields⟩, hchecksum⟩, hseg⟩, hlabels⟩ := h
  obtain ⟨hepsNum, hepsDen, hsampleCount, hbitCount, hsyncCount, hringCap, hticks, hcounts⟩ := hcounts
  obtain ⟨hauto, hcool, hdry, hheat, hfan, hfanAuto, hlow, hmedium, hhigh, hstart, hupdate, hstop, hcounts⟩ := hcounts
  obtain ⟨hnSelect, hnAdvance, hsyncWindows, hoptionSet, hsegTable, hlabelCount⟩ := hcounts
  obtain ⟨htempOffset, htempMin, htempMax, hfmTempOffset, hfmTempMin, hfmTempMax⟩ := htemps
  simp only [putConfig, List.append_assoc, List.cons_append, List.nil_append]
  unfold readConfig
  refine bind_of_read (readBool_putBool _ _) <| bind_of_read (readNat_putNat hepsNum _) <|
    bind_of_read (readNat_putNat hepsDen _) <| bind_of_read (readNat_putNat hsampleCount _) <|
    bind_of_read (readNat_putNat hbitCount _) <| bind_of_read (readNat_putNat hsyncCount _) <|
    bind_of_read (readWindows_putWindows hsyncWindows _) <| bind_of_read (readWindow_putWindow _ _) <|
    bind_of_read (readWindow_putWindow _ _) <| bind_of_read (readWindow_putWindow _ _) <|
    bind_of_read (readWindow_putWindow _ _) <| bind_of_read (readNat_putNat hringCap _) <|
    bind_of_read (readNat_putNat hticks _) <| bind_of_read (readBool_putBool _ _) <|
    bind_of_read (readBool_putBool _ _) <| bind_of_read (readByte_cons _ _) <| bind_of_read (readByte_cons _ _) <|
    bind_of_read (readByte_cons _ _) <| bind_of_read (readByte_cons _ _) <| bind_of_read (readByte_cons _ _) <|
    bind_of_read (readByte_cons _ _) <| bind_of_read (readChecksum_putChecksum hchecksum _) <|
    bind_of_read (readFieldMap_putFieldMap hfields _) <|
    bind_of_read (readModeCode_putModeCode (by simp [*]) _) <|
    bind_of_read (readFanCode_putFanCode (by simp [*]) _) <|
    bind_of_read (readFmStateCode_putFmStateCode (by simp [*]) _) <|
    bind_of_read (readInt_putInt htempOffset _) <| bind_of_read (readInt_putInt htempMin _) <|
    bind_of_read (readInt_putInt htempMax _) <| bind_of_read (readInt_putInt hfmTempOffset _) <|
    bind_of_read (readInt_putInt hfmTempMin _) <| bind_of_read (readInt_putInt hfmTempMax _) <|
    bind_of_read (readList_putBytes hoptionSet _) <| bind_of_read (readByte_cons _ _) <|
    bind_of_read (readSegTable_putSegTable hsegTable hseg _) <|
    bind_of_read (readLabels_putLabels hlabelCount hlabels _) <|
    bind_of_read (readNat_putNat hnSelect _) <| bind_of_read (readNat_putNat hnAdvance _) <|
    bind_of_read (readByte_cons _ _) <| bind_of_read (readByte_cons _ _) <|
    bind_of_read (readWord_putWord _ _) <| bind_of_read (readOptionalWord_putOptionalWord _ _) <|
    bind_of_read (readWord_putWord _ _) ?_
  rw [variant_of_bit, malformedPolicy_of_bit]

end Sys2Proof
end

section
/-! SUPPORT. The decoder on what the encoder makes: the operands of each operation read back on its port
(spec/30_encoding.md R36, R37, R43), and the codes R37 leaves unassigned. -/

namespace Sys2Proof

/-! ### The operand bundles of more than one operand -/

theorem readTwmk_putWords (nominal epsNum epsDen : Word) (rest : List Byte) :
    readTwmk (putWord nominal ++ (putWord epsNum ++ putWord epsDen) ++ rest) =
      some ((nominal, epsNum, epsDen), rest) := by
  simp [readTwmk]

theorem readTwin_putTwin (w : Window) (d : Word) (rest : List Byte) :
    readTwin (putWindow w ++ putWord d ++ rest) = some ((w, d), rest) := by
  simp [readTwin]

theorem readBuffer_of_length {n : Nat} {b : List Byte} (hb : b.length = n) (rest : List Byte) :
    readBuffer n (b ++ rest) = some (b, rest) := by
  subst hb
  exact readBuffer_append b rest

theorem readFmcmd_putFmcmd {n : Nat} {prev : List Byte} (hprev : prev.length = n) (st : Option FmState) {t : Int}
    (ht : fitsInt32 t = true) (rest : List Byte) :
    readFmcmd n (prev ++ (putFmState st ++ putInt t) ++ rest) = some ((prev, st, t), rest) := by
  simp [readFmcmd, readBuffer_of_length hprev, ht]

/-! ### The three ports -/

/-- A bundle that reads back whatever follows it reads back when nothing does. -/
theorem withOperands_of_reads {α : Type} {r : Reader α} {bytes : List Byte} {a : α}
    (h : ∀ rest, r (bytes ++ rest) = some (a, rest)) (f : α → Instr) : withOperands (r bytes) f = .instr (f a) :=
  withOperands_eq_instr.mpr ⟨a, [], by simpa using h [], rfl⟩

/-- A wire message is told by the kind in its first byte (R43). -/
theorem decodeWire_of_kind {c : Configuration} {buf : List Byte} {k : Kind} (now : Word)
    (h : (isBuffer c buf && Machine.wireKind c buf == some k) = true) :
    decodeWire c (buf ++ putWord now) = .instr (match k with
      | .command => .msgCommand buf now
      | .option => .msgOption buf now
      | .followMe => .msgFollowme buf now) := by
  obtain ⟨hlen, hkind⟩ : buf.length = c.msgLen ∧ Machine.wireKind c buf = some k := by simpa [isBuffer] using h
  have hread := readStamped_append hlen now []
  rw [List.append_nil] at hread
  simp only [decodeWire, hread, hkind]
  cases k <;> rfl

/-- The decoder finds the operation by its code and its reader reads the operands back; an operation of a code and at
most a byte decodes by evaluation. -/
theorem decode_requestOf {c : Configuration} {i : Instr} (h : i.wellFormed c = true) :
    decode c (requestOf i) = .instr i := by
  cases i with
  | reset config => exact withOperands_of_reads (readConfig_putConfig h) _
  | twmk nominal epsNum epsDen =>
    exact withOperands_of_reads (readTwmk_putWords nominal epsNum epsDen) fun a => .twmk a.1 a.2.1 a.2.2
  | twin w d => exact withOperands_of_reads (readTwin_putTwin w d) fun a => .twin a.1 a.2
  | send m | sendW m => exact withOperands_of_reads (readBuffer_of_length (isBuffer_iff.mp h)) _
  | isvalid b now | isvalidS b now => exact withOperands_of_reads (readStamped_append (isBuffer_iff.mp h) now) _
  | fmcmd prev st t =>
    obtain ⟨hprev, ht⟩ := Bool.and_eq_true_iff.mp h
    exact withOperands_of_reads (readFmcmd_putFmcmd (isBuffer_iff.mp hprev) st ht) _
  | setPower v | setSleep v => exact withOperands_of_reads (readBool_putBool v) _
  | setMode m => exact withOperands_of_reads (readMode_putMode m) _
  | setFan f => exact withOperands_of_reads (readFan_putFan f) _
  | setTemp t | setFmtemp t => exact withOperands_of_reads (readInt_putInt h) _
  | setFmstate st => exact withOperands_of_reads (readFmState_putFmState st) _
  | a2i text => exact withOperands_of_reads (readText_putText (of_decide_eq_true h)) _
  | scanstart now | scantick now => exact withOperands_of_reads (readWord_putWord now) _
  | rxedge now => exact withOperands_of_reads (readWord_putWord now) _
  | dclk data => exact withOperands_of_reads (readBool_putBool data) _
  | msgCommand buf now | msgOption buf now | msgFollowme buf now => exact decodeWire_of_kind now h
  | _ => rfl

/-- The codes R37 leaves unassigned. -/
theorem decodeCommand_of_unassigned {op : Byte}
    (h : op.toNat = 0x03 ∨ (0x06 ≤ op.toNat ∧ op.toNat ≤ 0x1F) ∨ (0x25 ≤ op.toNat ∧ op.toNat ≤ 0x3F) ∨
      (0x58 ≤ op.toNat ∧ op.toNat ≤ 0x5F) ∨ (0x65 ≤ op.toNat ∧ op.toNat ≤ 0x7F) ∨ 0x83 ≤ op.toNat)
    (c : Configuration) (operands : List Byte) :
    decodeCommand c (op :: operands) = .rejected .unassignedCode := by
  simp only [decodeCommand]
  split
  case h_43 => rfl
  all_goals omega

end Sys2Proof
end

section
/-! SUPPORT. Bits and numbers: a run of bits is the sum of its weighted bits, a number is the sum of its own
(spec/30_encoding.md R41), and so is a byte read from its other end (spec/00_scope.md R7). -/

namespace Sys2Proof.Machine

/-! ### Bits of a number -/

/-- The number a run of `w` bits stands for, the first bit most significant (R41). -/
def weightedSum (w : Nat) (bit : Nat → Bool) : Nat :=
  ((List.range w).map fun k => (bit k).toNat * 2 ^ (w - 1 - k)).sum

theorem weightedSum_succ (w : Nat) (bit : Nat → Bool) :
    weightedSum (w + 1) bit = (bit 0).toNat * 2 ^ w + weightedSum w fun k => bit (k + 1) := by
  simp only [weightedSum, List.range_succ_eq_map, List.map_cons, List.map_map, List.sum_cons, Nat.add_sub_cancel,
    Nat.sub_zero, Function.comp_def, Nat.succ_eq_add_one]
  congr 3
  funext k
  congr 2
  omega

theorem weightedSum_congr {w : Nat} {bit bit' : Nat → Bool} (h : ∀ k < w, bit k = bit' k) :
    weightedSum w bit = weightedSum w bit' := by
  unfold weightedSum
  congr 1
  exact List.map_congr_left fun k hk => by rw [h k (List.mem_range.mp hk)]

/-- The low `w` bits of a number, weighted, are its remainder. -/
theorem weightedSum_testBit (w v : Nat) : (weightedSum w fun k => v.testBit (w - 1 - k)) = v % 2 ^ w := by
  induction w with
  | zero => simp [weightedSum, Nat.mod_one]
  | succ w ih =>
    have hrest : (weightedSum w fun k => v.testBit (w + 1 - 1 - (k + 1))) = v % 2 ^ w := by
      rw [← ih]
      exact weightedSum_congr fun k _ => by congr 1; omega
    rw [weightedSum_succ, hrest, Nat.mod_pow_succ, Nat.toNat_testBit]
    simp [Nat.mul_comm, Nat.add_comm]

/-- `rev8` takes each bit at the weight of its mirror image (R7). -/
theorem toNat_rev8 (b : Byte) :
    (rev8 b).toNat = ((List.range 8).map fun k => (b.getLsbD k).toNat * 2 ^ (7 - k)).sum := by
  have hbits : ∀ k < 8, (rev8 b).toNat.testBit (8 - 1 - k) = b.getLsbD k := by
    intro k hk
    rw [BitVec.testBit_toNat, rev8, BitVec.getLsbD_reverse, BitVec.getMsbD]
    simp [show 7 - k < 8 by omega, show 7 - (7 - k) = k by omega]
  calc (rev8 b).toNat = (rev8 b).toNat % 2 ^ 8 := (Nat.mod_eq_of_lt (rev8 b).isLt).symm
    _ = weightedSum 8 (b.getLsbD ·) := by rw [← weightedSum_testBit, weightedSum_congr hbits]

/-! ### Runs of bits of a buffer -/

theorem getBitsG_eq_weightedSum (w : Nat) (buf : List Byte) (g : Nat) :
    getBitsG buf g w = weightedSum w fun k => getBitG buf (g + k) := by
  induction w generalizing g with
  | zero => rfl
  | succ w ih => simp only [getBitsG, weightedSum_succ, ih, Nat.add_zero, Nat.add_assoc, Nat.add_comm 1]

/-- A written run reads bit by bit as the number, and every bit outside it as before. -/
theorem getBitG_putBitsG (w : Nat) {buf : List Byte} {g : Nat} (hfit : g + w ≤ 8 * buf.length) (v h : Nat) :
    getBitG (putBitsG buf g v w) h =
      if g ≤ h ∧ h < g + w then v.testBit (w - 1 - (h - g)) else getBitG buf h := by
  induction w generalizing buf g with
  | zero => simp [putBitsG, show ¬ (g ≤ h ∧ h < g) by omega]
  | succ w ih =>
    rw [putBitsG, ih (by rw [length_putBitG]; omega), getBitG_putBitG _ _ _ _ (by omega)]
    obtain hfirst | rfl | hlater | hpast : h < g ∨ h = g ∨ (g + 1 ≤ h ∧ h < g + 1 + w) ∨ g + 1 + w ≤ h := by omega
    · simp [show ¬ g + 1 ≤ h by omega, show ¬ g ≤ h by omega, show h ≠ g by omega]
    · simp
    · simp only [hlater, and_self, if_true, show g ≤ h ∧ h < g + (w + 1) by omega]
      congr 1
      omega
    · simp [show ¬ h < g + 1 + w by omega, show ¬ h < g + (w + 1) by omega, show h ≠ g by omega]

/-- A field written to a number reads bit by bit as the number. -/
theorem getBitG_putField_of_mem {buf : List Byte} {f : Field} (hfit : f.start + f.width ≤ 8 * buf.length) (v : Nat)
    {k : Nat} (hk : k < f.width) : getBitG (putField buf f v) (f.start + k) = v.testBit (f.width - 1 - k) := by
  rw [putField, getBitG_putBitsG _ hfit, if_pos ⟨by omega, by omega⟩, Nat.add_sub_cancel_left]

/-- The bits outside a written field stay. -/
theorem getBitG_putField_of_not_mem {buf : List Byte} {f : Field} (hfit : f.start + f.width ≤ 8 * buf.length)
    (v : Nat) {g : Nat} (hg : g < f.start ∨ f.start + f.width ≤ g) :
    getBitG (putField buf f v) g = getBitG buf g := by
  rw [putField, getBitG_putBitsG _ hfit, if_neg (by omega)]

theorem getField_eq_weightedSum (buf : List Byte) (f : Field) :
    getField buf f = weightedSum f.width fun k => getBitG buf (f.start + k) :=
  getBitsG_eq_weightedSum _ _ _

/-- A number that fits the field is read back. -/
theorem getField_putField {buf : List Byte} {f : Field} (hfit : f.start + f.width ≤ 8 * buf.length) {v : Nat}
    (hv : v < 2 ^ f.width) : getField (putField buf f v) f = v := by
  calc getField (putField buf f v) f = weightedSum f.width fun k => v.testBit (f.width - 1 - k) := by
        rw [getField_eq_weightedSum]
        exact weightedSum_congr fun k hk => getBitG_putField_of_mem hfit v hk
    _ = v % 2 ^ f.width := weightedSum_testBit _ _
    _ = v := Nat.mod_eq_of_lt hv

/-- Setting a bit ORs its mask into its byte and leaves the other bytes (R40). -/
theorem getD_setBitG {buf : List Byte} {g : Nat} (hg : g / 8 < buf.length) (i : Nat) :
    (setBitG buf g).getD i 0 = if i = g / 8 then buf.getD i 0 ||| bitMask g else buf.getD i 0 := by
  simp only [setBitG, List.getD_eq_getElem?_getD, List.getElem?_modify]
  split
  · next hi =>
    subst hi
    simp [hg]
  · next hi => simp [Ne.symm hi]

/-! ### The reference checksum -/

/-- A sum of bytes is the sum of their numbers modulo 256. -/
theorem toNat_foldl_add (bs : List Byte) (a : Byte) :
    (bs.foldl (· + ·) a).toNat = (a.toNat + (bs.map BitVec.toNat).sum) % 256 := by
  induction bs generalizing a with
  | nil => simp [Nat.mod_eq_of_lt a.isLt]
  | cons b bs ih =>
    rw [List.foldl_cons, ih, BitVec.toNat_add, List.map_cons, List.sum_cons]
    omega

theorem toNat_checksumRef (p : List Byte) :
    (checksumRef p).toNat = 255 -
      (p.map fun b => ((List.range 8).map fun k => (b.getLsbD k).toNat * 2 ^ (7 - k)).sum).sum % 256 := by
  have hsum : ((p.map rev8).foldl (· + ·) 0).toNat =
      (p.map fun b => ((List.range 8).map fun k => (b.getLsbD k).toNat * 2 ^ (7 - k)).sum).sum % 256 := by
    rw [toNat_foldl_add, List.map_map]
    simp only [Function.comp_def, toNat_rev8, BitVec.ofNat_eq_ofNat, BitVec.toNat_ofNat, Nat.zero_mod, Nat.zero_add]
  rw [checksumRef, BitVec.toNat_sub, hsum]
  simp only [BitVec.toNat_ofNat]
  omega

end Sys2Proof.Machine
end

section
/-! SUPPORT. How an operation completes: with nothing or one more response put out, and that response's status one the
command port returns (spec/30_encoding.md R35, spec/60_exceptions.md R127, R129). -/

namespace Sys2Proof.Machine

/-! ### Completing -/

/-- An outcome reached from `s` that is a next state with at most one response more, of a status of at most 9. -/
def Completes (s : State) (o : Out) : Prop :=
  ∃ t, o = .next t ∧ (t.responses = s.responses ∨
    ∃ r : Response, t.responses = s.responses ++ [r] ∧ r.statusByte.toNat ≤ 9)

variable {s u : State}

/-- Every status but SPURIOUS_EDGE has a code of at most 9 (R127). -/
theorem toNat_code_le {st : Status} (h : st ≠ .spuriousEdge) : st.code.toNat ≤ 9 := by
  cases st with
  | spuriousEdge => exact absurd rfl h
  | _ => decide

/-- A next state with the responses there were. -/
theorem Completes.silent (hu : u.responses = s.responses) : Completes s (.next u) := ⟨u, rfl, .inl hu⟩

/-- A next state with the responses there were, then an answer. -/
theorem Completes.answer (hu : u.responses = s.responses) {st : Status} (hst : st ≠ .spuriousEdge) (r : Result) :
    Completes s (u.fail st r) :=
  ⟨u.respond st r, rfl, .inr ⟨⟨st, r⟩, by rw [State.respond_responses, hu], toNat_code_le hst⟩⟩

theorem Completes.ok (hu : u.responses = s.responses) (r : Result) : Completes s (u.complete r) :=
  .answer hu (by decide) r

theorem Completes.heatPumpOnly {k : Out} (h : Completes s k) : Completes s (s.heatPumpOnly k) := by
  obtain hk | hill := heatPumpOnly_cases s k
  · rwa [hk]
  · rw [hill]
    exact .answer (u := s) rfl (by decide) .empty

theorem Completes.ite {p : Prop} [Decidable p] {a b : Out} (ha : Completes s a) (hb : Completes s b) :
    Completes s (if p then a else b) := by
  split
  · exact ha
  · exact hb

/-! ### The accessors -/

theorem Completes.getter {α : Type} (ks : List Kind) (f : FieldMap → Field) (value : Nat → Option α)
    (result : α → Result) : Completes s (s.getter ks f value result) := by
  obtain ⟨st, r, hst, heq⟩ := getter_next s ks f value result
  rw [heq]
  exact .answer (u := s) rfl (by rintro rfl; simp at hst) r

theorem Completes.setter (ks : List Kind) {write : Option State} (hw : ∀ t ∈ write, t.responses = s.responses) :
    Completes s (s.setter ks write) := by
  obtain ⟨t, hwrite, -, -, heq⟩ | ⟨st, hst, heq⟩ := setter_next s ks write
  · rw [heq]
    exact .ok (hw t hwrite) .empty
  · rw [heq]
    exact .answer (u := s) rfl (by rintro rfl; simp at hst) .empty

theorem writeMode_responses (s : State) (m : Mode) : (s.writeMode m).responses = s.responses := by
  cases m <;> rfl

theorem writeFan_responses (s : State) (f : Fan) : (s.writeFan f).responses = s.responses := by
  unfold State.writeFan
  split <;> rfl

/-! ### The codec -/

theorem checkStatus_ne_spuriousEdge (x : CheckResult) : checkStatus x ≠ .spuriousEdge := by
  cases x <;> decide

theorem completes_validate (s : State) (b : List Byte) (now : Word) : Completes s (s.validate b now) := by
  unfold State.validate
  split
  · next v _ =>
    have hst : adoptStatus s.cfg (plainPayload s.cfg b v) ≠ .spuriousEdge := by
      unfold adoptStatus
      split <;> decide
    exact .answer (u := s.adopt _ v now) rfl hst _
  · exact .answer rfl (checkStatus_ne_spuriousEdge _) _

theorem completes_fmcmd (s : State) (prev : List Byte) (st : Option FmState) (t : Int) :
    Completes s (execFmcmd prev st t s) := by
  refine Completes.heatPumpOnly ?_
  split
  · exact .answer rfl (checkStatus_ne_spuriousEdge _) _
  · split
    · split
      · exact .ok rfl _
      · exact .answer rfl (by decide) _
    · exact .answer rfl (by decide) _

/-! ### The display, the receiver and the transmitter -/

theorem completes_judgeFrame (hu : u.responses = s.responses) (raw : Frame) : Completes s (u.judgeFrame raw) :=
  .ite (.ok (by exact hu) _) (.ok hu _)

theorem completes_hasupd (s : State) : Completes s (execHasupd s) := by
  unfold execHasupd
  split
  · exact .ite (.ite (completes_judgeFrame rfl _) (.silent rfl)) (.ok rfl _)
  · exact .silent rfl
  · exact .silent rfl
  · exact completes_judgeFrame rfl _

theorem completes_chkmsg (s : State) : Completes s (execChkmsg s) := by
  refine .ite ?_ (.answer rfl (by decide) _)
  split
  · exact .ok rfl _
  · exact .answer rfl (by decide) _
  · exact .answer rfl (by decide) _

theorem completes_rxedge (s : State) (now : Word) : Completes s (execRxedge now s) := by
  refine .ite ?_ (.silent rfl)
  split
  · obtain ⟨-, heq⟩ | ⟨-, heq⟩ := searchSync_cases (s.storeEdge now) <;> rw [heq] <;> exact .silent rfl
  · exact .silent rfl

theorem completes_txcmp (s : State) : Completes s (execTxcmp s) := by
  refine .ite (.ite (.silent rfl) ?_) (.silent rfl)
  obtain ⟨-, heq⟩ | ⟨-, heq⟩ := releaseHost_cases { s with txIdx := s.txIdx + 1, txActive := false } <;> rw [heq]
  · exact .ok (u := { s with txIdx := s.txIdx + 1, txActive := false, hostBlocked := false }) rfl .empty
  · exact .silent rfl

/-! ### The scanner -/

/-- An emission puts nothing out on the command port. -/
theorem emitOption_responses {o : Byte} (h : s.emitOption o = some u) : u.responses = s.responses := by
  obtain ⟨-, m, -, rfl⟩ := emitOption_eq_some h
  rfl

theorem completes_tickStepping (s : State) : Completes s s.tickStepping := by
  unfold State.tickStepping
  split
  · exact .ok rfl _
  · next hemit =>
    have hu := emitOption_responses hemit
    exact .ok (by exact hu) _

theorem completes_tickValue (s : State) (now : Word) : Completes s (s.tickValue now) := by
  refine .ite (.ok rfl _) (.ite (.ok rfl _) ?_)
  split
  · exact .ok rfl _
  · next hemit =>
    have hu := emitOption_responses hemit
    exact .ite (.ok (by exact hu) _) (.ok (by exact hu) _)

theorem completes_scantick (s : State) (now : Word) : Completes s (execScantick now s) := by
  refine Completes.heatPumpOnly ?_
  split
  · exact .ite (.ok rfl _) (.ok rfl _)
  · exact completes_tickStepping s
  · exact .ite (.ok rfl _) (.ok rfl _)
  · exact completes_tickValue s now

/-! ### Every operation -/

theorem exec_completes (i : Instr) (s : State) : Completes s (exec i s) := by
  cases i with
  -- SYS
  | nop | twin => exact .ok rfl _
  | reset config => exact .ite (.ok rfl _) (.answer rfl (by decide) _)
  | status sel =>
    simp only [exec, execStatus]
    split
    · exact .ok rfl _
    · exact .answer rfl (by decide) _
  | twmk nominal epsNum epsDen =>
    refine Completes.ite (.answer rfl (by decide) _) ?_
    split
    · exact .ok rfl _
    · exact .answer rfl (by decide) _
  -- TRX
  | send m => exact .ite (.answer rfl (by decide) _) (.ok rfl _)
  | sendW m => exact .ite (.answer rfl (by decide) _) (.silent rfl)
  | listen | listenstop => exact .ok rfl _
  | chkmsg => exact completes_chkmsg s
  -- CODEC
  | isvalid b now => exact .heatPumpOnly (completes_validate s b now)
  | isvalidS b now => exact .heatPumpOnly (completes_validate s (stamp s.cfg b) now)
  | getmsg | getseq | getts => exact .heatPumpOnly (.ok rfl _)
  | optcmd o =>
    refine Completes.heatPumpOnly ?_
    split
    · exact .ok rfl _
    · exact .answer rfl (by decide) _
  | fmcmd prev st t => exact completes_fmcmd s prev st t
  | getkind =>
    refine Completes.heatPumpOnly ?_
    split
    · exact .ok rfl _
    · exact .answer rfl (by decide) _
  | getPower | getMode | getFan | getSleep | getOption | getFmtemp | getFmstate => exact .getter _ _ _ _
  | getTemp => exact .ite (.answer rfl (by decide) _) (.getter _ _ _ _)
  | setPower v =>
    simp only [exec, execSetPower]
    refine Completes.setter commandKinds ?_
    rintro t ⟨⟩
    split <;> rfl
  | setMode m =>
    refine Completes.setter commandKinds ?_
    cases m with
    | none => rintro t ⟨⟩
    | some m => rintro t ⟨⟩; exact writeMode_responses s m
  | setFan f =>
    refine Completes.setter commandKinds ?_
    cases f with
    | none => rintro t ⟨⟩
    | some f => rintro t ⟨⟩; exact writeFan_responses s f
  | setSleep v =>
    simp only [exec, execSetSleep]
    refine Completes.setter commandKinds ?_
    rintro t ⟨⟩
    split <;> rfl
  | setTemp t =>
    refine Completes.setter commandKinds ?_
    split
    · rintro t ⟨⟩; rfl
    · split <;> rintro t ⟨⟩; rfl
  | setOption o =>
    refine Completes.setter [.option] ?_
    split <;> rintro t ⟨⟩; rfl
  | setFmtemp t =>
    refine Completes.setter [.followMe] ?_
    split <;> rintro t ⟨⟩; rfl
  | setFmstate st =>
    refine Completes.setter [.followMe] ?_
    cases st <;> rintro t ⟨⟩; rfl
  -- DISP
  | dlisten | dlistenstop | ascii | a2i => exact .ok rfl _
  | hasupd => exact completes_hasupd s
  -- SCAN
  | scanstart now => exact .heatPumpOnly (.ite (.answer rfl (by decide) _) (.ok rfl _))
  | scantick now => exact completes_scantick s now
  | propsnap => exact .heatPumpOnly (.ok rfl _)
  -- events and wire messages
  | rxedge now => exact completes_rxedge s now
  | txcmp => exact completes_txcmp s
  | dclk data => exact .ite (.ite (.silent rfl) (.silent rfl)) (.silent rfl)
  | dstb => exact .ite (.silent rfl) (.silent rfl)
  | msgCommand | msgOption | msgFollowme => exact .silent rfl

end Sys2Proof.Machine
end

section
/-! SUPPORT. The display decoder's events, and the byte and the frame that they carry (spec/30_encoding.md R47,
spec/44_display.md R104, R105). -/

namespace Sys2Proof.Machine

variable {s : State}

/-! ### Runs of operations -/

theorem execAll_cons_of_next {i : Instr} {is : List Instr} {t : State} {o : Out} (hi : exec i s = .next t)
    (his : execAll is t = o) : execAll (i :: is) s = o := by
  simp only [execAll, hi, his]

theorem execAll_append_of_next {is js : List Instr} {t : State} {o : Out} (his : execAll is s = .next t)
    (hjs : execAll js t = o) : execAll (is ++ js) s = o := by
  induction is generalizing s with
  | nil =>
    cases his
    exact hjs
  | cons i is ih =>
    simp only [List.cons_append, execAll] at his ⊢
    split at his
    · exact ih his
    · cases his
    · cases his

/-! ### One event -/

theorem exec_dstb_of_listening (hon : s.dListening = true) :
    exec .dstb s = .next { s with dBitPos := 0, dBytePos := 0, dByte := 0 } := by
  simp [exec, execDstb, hon]

/-- A bit that does not complete its byte. -/
theorem exec_dclk_of_lt (hon : s.dListening = true) (hbyte : s.dBytePos ≠ 3) (hbit : s.dBitPos.val < 7)
    (data : Bool) : exec (.dclk data) s = .next { s with dByte := s.sample data, dBitPos := s.dBitPos + 1 } := by
  simp [exec, execDclk, hon, hbyte, hbit]

/-- The bit that completes its byte. -/
theorem exec_dclk_of_last (hon : s.dListening = true) (hbyte : s.dBytePos ≠ 3) (hbit : s.dBitPos = 7) (data : Bool) :
    exec (.dclk data) s = .next { s with
      dRaw := s.dRaw.put s.dBytePos (s.sample data)
      dByte := 0
      dBitPos := 0
      dBytePos := s.dBytePos + 1
      dReady := if s.dBytePos + 1 = 3 then true else s.dReady } := by
  simp [exec, execDclk, hon, hbyte, hbit]

/-! ### A byte -/

/-- The `k` low bits of a byte: what has been sampled of it after `k` clock edges. -/
def lowBits (b : Byte) (k : Nat) : Byte := (b.setWidth k).setWidth 8

/-- The next sample adds the next bit. -/
theorem lowBits_succ (b : Byte) {k : Nat} (hk : k < 8) :
    lowBits b (k + 1) = lowBits b k ||| ((if b.getLsbD k then 1#8 else 0) <<< k) := by
  apply BitVec.eq_of_getLsbD_eq
  intro j hj
  have hone : ((if b.getLsbD k then 1#8 else 0) <<< k).getLsbD j = (b.getLsbD k && decide (j = k)) := by
    cases b.getLsbD k
    · simp
    · rw [if_pos rfl, ← BitVec.twoPow_eq, BitVec.getLsbD_twoPow]
      grind
  rw [BitVec.getLsbD_or, hone]
  simp only [lowBits, BitVec.getLsbD_setWidth, hj, decide_true, Bool.true_and]
  grind

theorem lowBits_zero (b : Byte) : lowBits b 0 = 0 := by
  apply BitVec.eq_of_getLsbD_eq
  simp [lowBits]

theorem lowBits_eight (b : Byte) : lowBits b 8 = b := by simp [lowBits]

/-- The first clock edges of a byte shift its low bits in. -/
theorem execAll_dclk_lowBits (hon : s.dListening = true) (hbyte : s.dBytePos ≠ 3) (hbit : s.dBitPos = 0)
    (hzero : s.dByte = 0) (b : Byte) {k : Nat} (hk : k ≤ 7) :
    execAll ((List.range k).map fun j => .dclk (b.getLsbD j)) s =
      .next { s with dByte := lowBits b k, dBitPos := Fin.ofNat 8 k } := by
  induction k with
  | zero =>
    rw [lowBits_zero, ← hzero, show Fin.ofNat 8 0 = s.dBitPos from hbit.symm]
    rfl
  | succ k ih =>
    have hpos : (Fin.ofNat 8 k).val = k := Nat.mod_eq_of_lt (by omega)
    have hnext : Fin.ofNat 8 k + 1 = Fin.ofNat 8 (k + 1) := by
      apply Fin.ext
      simp [Fin.val_add]
    rw [List.range_succ, List.map_append]
    refine execAll_append_of_next (ih (by omega)) (execAll_cons_of_next (exec_dclk_of_lt
      (s := { s with dByte := lowBits b k, dBitPos := Fin.ofNat 8 k }) hon hbyte (by rw [hpos]; omega) _) ?_)
    simp only [List.map_nil, execAll, State.sample, hpos, hnext, lowBits_succ b (show k < 8 by omega)]

/-- Eight clock edges store a byte at its place. -/
theorem execAll_clockByte (p : Fin 4) (hp : p ≠ 3) (hon : s.dListening = true) (hbyte : s.dBytePos = p)
    (hbit : s.dBitPos = 0) (hzero : s.dByte = 0) (b : Byte) :
    execAll (clockByte b) s = .next { s with
      dRaw := s.dRaw.put p b
      dByte := 0
      dBitPos := 0
      dBytePos := p + 1
      dReady := if p + 1 = 3 then true else s.dReady } := by
  subst hbyte
  have hlast : { s with dByte := lowBits b 7, dBitPos := 7 }.sample (b.getLsbD 7) = b := by
    have hsucc := lowBits_succ b (show 7 < 8 by decide)
    rw [lowBits_eight] at hsucc
    exact hsucc.symm
  rw [clockByte, List.range_succ, List.map_append]
  refine execAll_append_of_next (execAll_dclk_lowBits hon hp hbit hzero b (Nat.le_refl 7))
    (execAll_cons_of_next (exec_dclk_of_last (s := { s with dByte := lowBits b 7, dBitPos := 7 }) hon hp rfl _) ?_)
  rw [hlast]
  rfl

end Sys2Proof.Machine
end

section
/-! SUPPORT. The times of a wire message's edges (spec/30_encoding.md R38, spec/41_transceiver_tx.md R62). -/

namespace Sys2Proof.Machine

/-- Each edge comes after the pulses before it. -/
theorem getD_edgeTimes (c : Configuration) (m : List Byte) {n : Nat} (now : Word) (i : Nat) {j : Nat} (hj : j < n) :
    (edgeTimes c m now i n).getD j 0 = now + ((List.range j).map fun k => pulse c m (i + k)).sum := by
  induction n generalizing now i j with
  | zero => omega
  | succ n ih =>
    cases j with
    | zero => simp [edgeTimes]
    | succ j =>
      rw [edgeTimes, List.getD_cons_succ, ih _ _ (by omega), List.range_succ_eq_map]
      simp [Function.comp_def, BitVec.add_assoc, Nat.add_assoc, Nat.add_comm 1]

end Sys2Proof.Machine
end

section
/-! CERTIFICATE. The statements about encoding, message bits, built messages and what the events and wire messages
carry, settled from the lemmas above. -/

namespace Sys2Proof.Machine

/-- Settles O1, operation by operation: the code is the operation's, and its reader reads back what its operands are
packed in. -/
theorem decodeEncodeAgree : Obligations.DecodeEncodeAgree := by
  intro c i h
  exact decode_requestOf h

/-- Settles O3, by evaluation: the words are closed. -/
theorem sampleWordsDecode : Obligations.SampleWordsDecode :=
  ⟨rfl, rfl, rfl, rfl, rfl, rfl, rfl⟩

/-- Settles O6: a free host takes the request, and its code is none the decoder knows. -/
theorem unassignedCodesAreIllegal : Obligations.UnassignedCodesAreIllegal := by
  intro s op operands rest hfree hin hop
  rw [step_of_cons hin (.inl hfree)]
  simp only [runRequest, decode, decodeCommand_of_unassigned hop, illegalOp_eq]
  rfl

/-- Settles O7: each operation completes, and the codes are evaluated. -/
theorem everyOperationCompletes : Obligations.EveryOperationCompletes :=
  ⟨exec_completes, fun _ => rfl, rfl⟩

/-- Settles O19: `BitPos` and `GetBit` are their definitions, and a set bit changes its own byte. -/
theorem messageBitsHaveTheirPlaces : Obligations.MessageBitsHaveTheirPlaces := by
  intro bitCount buf s b
  exact ⟨rfl, decide_eq_true_iff, fun g i hg => getD_setBitG hg i⟩

/-- Settles O20: reading is the sum over the field's bits, and writing puts the number's bits there, whose sum it is. -/
theorem fieldsReadAndWriteTheirBits : Obligations.FieldsReadAndWriteTheirBits := by
  intro buf f v hfit hv
  exact ⟨getField_eq_weightedSum buf f, fun k => getBitG_putField_of_mem hfit v,
    fun g => getBitG_putField_of_not_mem hfit v, getField_putField hfit hv, length_putField buf f v⟩

/-- Settles O31: the sizes are those of a well-formed heat-pump configuration, and each part of the built buffer is read
back at its place. -/
theorem builtMessageHasTwoSamples : Obligations.BuiltMessageHasTwoSamples := by
  refine ⟨fun c p href => ?_, fun c p h hv hp => ?_⟩
  · rw [checksum, href]
    exact toNat_checksumRef p
  · obtain ⟨hsamples, hbits, -, -⟩ := wf_heatPump h hv
    exact ⟨hsamples, hbits, length_build_of_wf h hv hp, pay_build_zero hp, cs_build_zero hp, pay_build_one hp,
      cs_build_one hp⟩

/-- Settles O50: the strobe aligns the decoder, and each byte is stored where the one before it leaves the position. -/
theorem frameIsReassembled : Obligations.FrameIsReassembled := by
  intro s x y z hon
  exact execAll_cons_of_next (exec_dstb_of_listening hon) <| execAll_append_of_next
    (execAll_append_of_next (execAll_clockByte 0 (by decide) (by exact hon) rfl rfl rfl x)
      (execAll_clockByte 1 (by decide) (by exact hon) rfl rfl rfl y))
    (execAll_clockByte 2 (by decide) (by exact hon) rfl rfl rfl z)

/-- Settles O60: the times are those the meaning of all three rows computes. -/
theorem wireMessagesBecomeEdges : Obligations.WireMessagesBecomeEdges := by
  intro s buf now
  refine ⟨edgeTimes s.cfg buf now 0 s.cfg.tableLen, length_edgeTimes _ _ _ _ _, fun j hj => ?_, fun i hi => ?_⟩
  · simpa using getD_edgeTimes s.cfg buf now 0 hj
  · simp only [List.mem_cons, List.not_mem_nil, or_false] at hi
    obtain rfl | rfl | rfl := hi <;> rfl

end Sys2Proof.Machine
end

section
/-! SUPPORT. The tolerance window (spec/40_tolerance_descriptor.md R53 to R55): its bounds on exact integers, the window
they make, and the answers of TWMK and TWIN. -/

namespace Sys2Proof.Machine

/-! ### The bounds -/

/-- The lower bound is at most the nominal, so it fits the word whenever the nominal does. -/
theorem windowLo_le (nominal num den : Nat) : windowLo nominal num den ≤ nominal := by
  apply Nat.div_le_of_le_mul
  rw [Nat.mul_comm den]
  exact Nat.mul_le_mul_left nominal (Nat.sub_le den num)

theorem windowLo_lt {nominal num den : Nat} (hnum : 0 < num) (hden : 0 < den) (hnominal : 0 < nominal) :
    windowLo nominal num den < nominal := by
  rw [windowLo, Nat.div_lt_iff_lt_mul hden]
  exact Nat.mul_lt_mul_of_pos_left (Nat.sub_lt hden hnum) hnominal

/-- The widening `nominal·num` is at least one part in `den`, and the ceiling does not lose it. -/
theorem lt_windowHi {nominal num den : Nat} (hnum : 0 < num) (hden : 0 < den) (hnominal : 0 < nominal) :
    nominal < windowHi nominal num den := by
  have hwidening : 0 < nominal * num := Nat.mul_pos hnominal hnum
  rw [windowHi, ← Nat.succ_le_iff, Nat.le_div_iff_mul_le hden, Nat.succ_mul, Nat.mul_add]
  omega

/-! ### The window -/

theorem mkWindow_of_fits {nominal : Word} {num den : Nat} (h : windowHi nominal.toNat num den < 2 ^ 32) :
    mkWindow nominal num den = some ⟨nominal, BitVec.ofNat 32 (windowLo nominal.toNat num den),
      BitVec.ofNat 32 (windowHi nominal.toNat num den)⟩ :=
  if_pos h

theorem mkWindow_of_overflow {nominal : Word} {num den : Nat} (h : 2 ^ 32 ≤ windowHi nominal.toNat num den) :
    mkWindow nominal num den = none :=
  if_neg (Nat.not_lt.mpr h)

/-- A window that was built holds the exact bounds: neither is cut to the word. -/
theorem mkWindow_bounds {nominal : Word} {num den : Nat} {w : Window} (h : mkWindow nominal num den = some w) :
    w.nominal = nominal ∧ w.lo.toNat = windowLo nominal.toNat num den ∧
      w.hi.toNat = windowHi nominal.toNat num den := by
  obtain hfits | hover := Nat.lt_or_ge (windowHi nominal.toNat num den) (2 ^ 32)
  · rw [mkWindow_of_fits hfits, Option.some.injEq] at h
    have hlo := (windowLo_le nominal.toNat num den).trans_lt nominal.isLt
    subst h
    exact ⟨rfl, (BitVec.toNat_ofNat _ _).trans (Nat.mod_eq_of_lt hlo),
      (BitVec.toNat_ofNat _ _).trans (Nat.mod_eq_of_lt hfits)⟩
  · simp [mkWindow_of_overflow hover] at h

theorem inWin_iff (w : Window) (d : Word) : inWin w d = true ↔ InWindow w d := by
  simp [inWin, InWindow, BitVec.le_def]

/-! ### The answers of TWMK and TWIN -/

variable {nominal num den : Word}

/-- TWMK's test of ε is the one on the numbers the words hold. -/
theorem badEps_iff : num = 0 ∨ den = 0 ∨ den.toNat ≤ num.toNat ↔
    num.toNat = 0 ∨ den.toNat = 0 ∨ den.toNat ≤ num.toNat := by
  simp [BitVec.toNat_eq]

theorem exec_twmk_of_badEps (h : num.toNat = 0 ∨ den.toNat = 0 ∨ den.toNat ≤ num.toNat) (s : State) :
    exec (.twmk nominal num den) s = .next (s.respond .invalidField .empty) :=
  if_pos (badEps_iff.mpr h)

theorem exec_twmk_of_none (heps : ¬ (num.toNat = 0 ∨ den.toNat = 0 ∨ den.toNat ≤ num.toNat))
    (h : mkWindow nominal num.toNat den.toNat = none) (s : State) :
    exec (.twmk nominal num den) s = .next (s.respond .resourceExhaustion .empty) := by
  simp only [exec, execTwmk, if_neg (badEps_iff.not.mpr heps), h, fail_eq]

theorem exec_twmk_of_some (heps : ¬ (num.toNat = 0 ∨ den.toNat = 0 ∨ den.toNat ≤ num.toNat)) {w : Window}
    (h : mkWindow nominal num.toNat den.toNat = some w) (s : State) :
    exec (.twmk nominal num den) s = .next (s.respond .ok (.window w)) := by
  simp only [exec, execTwmk, if_neg (badEps_iff.not.mpr heps), h, complete_eq]

theorem exec_twin (w : Window) (d : Word) (s : State) :
    exec (.twin w d) s = .next (s.respond .ok (.bit (inWin w d))) := rfl

end Sys2Proof.Machine
end

section
/-! CERTIFICATE. The statements about the tolerance window, settled from the lemmas above. -/

namespace Sys2Proof.Machine

/-- Settles O17: the built window holds the exact bounds, and these are strictly below and above the nominal. -/
theorem windowsContainTheirNominal : Obligations.WindowsContainTheirNominal := by
  intro nominal num den w hnum heps hnominal hw
  have hden : 0 < den := hnum.trans heps
  obtain ⟨hnom, hlo, hhi⟩ := mkWindow_bounds hw
  rw [hlo, hhi, hnom]
  exact ⟨windowLo_lt hnum hden hnominal, lt_windowHi hnum hden hnominal, rfl⟩

/-- Settles O16, by the three answers: ε outside (0,1), an upper bound past the word, and the window. -/
theorem twmkBuildsTheWindow : Obligations.TwmkBuildsTheWindow := by
  intro nominal num den s
  split_ifs with heps hover
  · exact exec_twmk_of_badEps heps s
  · exact exec_twmk_of_none heps (mkWindow_of_overflow hover) s
  · exact exec_twmk_of_some heps (mkWindow_of_fits (Nat.not_le.mp hover)) s

/-- Settles O18: the answer is the membership test, which is the proposition's truth value. -/
theorem twinTestsMembership : Obligations.TwinTestsMembership := by
  intro w d s
  have hbit : inWin w d = decide (w.lo.toNat ≤ d.toNat ∧ d.toNat ≤ w.hi.toNat) := by
    rw [Bool.eq_iff_iff, inWin_iff, decide_eq_true_iff, InWindow]
  rw [exec_twin, hbit]
  rfl

end Sys2Proof.Machine
end

section
/-! SUPPORT. What the next step takes while a SEND.W holds the host (spec/41_transceiver_tx.md R63,
spec/60_exceptions.md R136; notes/assumptions/11.md). -/

namespace Sys2Proof.Machine

variable {s : State}

theorem firstNonCommand_commands (waiting : List (List Byte)) :
    firstNonCommand (waiting.map Request.command) = none := by
  induction waiting with
  | nil => rfl
  | cons b waiting ih => simp [firstNonCommand, isCommand, ih]

/-- The commands before the request that is taken stay before what followed it. -/
theorem firstNonCommand_commands_append (waiting : List (List Byte)) {r : Request} (hr : isCommand r = false)
    (rest : List Request) :
    firstNonCommand (waiting.map Request.command ++ r :: rest) = some (r, waiting.map Request.command ++ rest) := by
  induction waiting with
  | nil => simp [firstNonCommand, hr]
  | cons b waiting ih => simp [firstNonCommand, isCommand, ih]

theorem nextTurn_of_blocked (hblocked : s.hostBlocked = true) (hidle : s.hasupd = .idle) :
    nextTurn s = nextWhileBlocked s := by
  simp [nextTurn, hidle, hblocked]

theorem step_of_blocked_none (hblocked : s.hostBlocked = true) (hidle : s.hasupd = .idle)
    (hnone : firstNonCommand s.inbox = none) : step s = .next s := by
  simp [step, nextTurn_of_blocked hblocked hidle, nextWhileBlocked, hnone]

theorem step_of_blocked_some (hblocked : s.hostBlocked = true) (hidle : s.hasupd = .idle) {r : Request}
    {rs : List Request} (hsome : firstNonCommand s.inbox = some (r, rs)) :
    step s = runRequest r { s with inbox := rs } := by
  simp [step, nextTurn_of_blocked hblocked hidle, nextWhileBlocked, hsome]

end Sys2Proof.Machine
end

section
/-! SUPPORT. The pulse table, slot by slot (spec/41_transceiver_tx.md R58, spec/30_encoding.md R38, R39). -/

namespace Sys2Proof.Machine

variable (c : Configuration) (m : List Byte) (s : Nat)

/-! ### The slots of a sample-frame -/

theorem nominalOf_sync {p : Nat} (hp : p < c.syncCount) :
    nominalOf c m s p = (c.syncWindows.getD p ⟨0, 0, 0⟩).nominal :=
  if_pos hp

theorem nominalOf_separator (i : Nat) : nominalOf c m s (c.syncCount + 2 * i) = c.separatorWindow.nominal := by
  simp [nominalOf]

/-- An odd slot after the sync carries the pair's second duration: a data bit, or the break after the last one. -/
theorem nominalOf_second (i : Nat) : nominalOf c m s (c.syncCount + 2 * i + 1) =
    if i < c.bitCount then
      if getBit c.bitCount m s i then c.oneWindow.nominal else c.zeroWindow.nominal
    else c.breakWindow.nominal := by
  have hslot : c.syncCount + 2 * i + 1 - c.syncCount = 2 * i + 1 := by omega
  have hpair : (2 * i + 1) / 2 = i := by omega
  simp only [nominalOf, hslot, hpair, if_neg (show ¬ c.syncCount + 2 * i + 1 < c.syncCount by omega),
    if_neg (show ¬ (2 * i + 1) % 2 = 0 by omega)]

theorem nominalOf_data {i : Nat} (hi : i < c.bitCount) : nominalOf c m s (c.syncCount + 2 * i + 1) =
    (if getBit c.bitCount m s i then c.oneWindow else c.zeroWindow).nominal := by
  rw [nominalOf_second, if_pos hi, ← apply_ite Window.nominal]

theorem nominalOf_break : nominalOf c m s (c.syncCount + 2 * c.bitCount + 1) = c.breakWindow.nominal := by
  rw [nominalOf_second, if_neg (Nat.lt_irrefl _)]

/-! ### The sample-frames of the table -/

theorem pulse_slot {p : Nat} (hp : p < c.frameLen) : pulse c m (s * c.frameLen + p) = nominalOf c m s p := by
  have hframe : (s * c.frameLen + p) / c.frameLen = s := by
    rw [Nat.mul_comm, Nat.mul_add_div (Nat.zero_lt_of_lt hp), Nat.div_eq_of_lt hp, Nat.add_zero]
  rw [pulse, hframe, Nat.mul_add_mod_of_lt hp]

/-- Slot `p` of sample-frame `s` stands `p` entries after the frames before it. -/
theorem getElem?_pulseTable_slot (hs : s < c.sampleCount) {p : Nat} (hp : p < c.frameLen) :
    (pulseTable c m)[s * c.frameLen + p]? =
      some (BitVec.ofNat 32 ((nominalOf c m s p).toNat * c.ticksPerUs)) := by
  have hlt : s * c.frameLen + p < c.tableLen :=
    calc s * c.frameLen + p < s * c.frameLen + c.frameLen := Nat.add_lt_add_left hp _
      _ = (s + 1) * c.frameLen := (Nat.succ_mul s c.frameLen).symm
      _ ≤ c.sampleCount * c.frameLen := Nat.mul_le_mul_right _ hs
  simp [pulseTable, hlt, pulse_slot c m s hp]

end Sys2Proof.Machine
end

section
/-! SUPPORT. A transmission, from the start to the release of the host: what each TXCMP event does, and the state it has
reached after a number of them (spec/41_transceiver_tx.md R59, R61 to R63). -/

namespace Sys2Proof.Machine

variable {s : State}

/-! ### The start, and one event -/

theorem exec_send_of_free (hfree : s.txActive = false) (m : List Byte) :
    exec (.send m) s = .next ((s.startTransmission m).respond .ok .empty) := by
  simp [exec, execSend, hfree]

theorem exec_sendW_of_free (hfree : s.txActive = false) (m : List Byte) :
    exec (.sendW m) s = .next { s.startTransmission m with hostBlocked := true } := by
  simp [exec, execSendW, hfree]

/-- After the release the host is free, and it has its response if it waited. -/
theorem releaseHost_eq (s : State) : s.releaseHost = { s with
    hostBlocked := false
    responses := if s.hostBlocked then s.responses ++ [⟨.ok, .empty⟩] else s.responses } := by
  obtain ⟨hb, heq⟩ | ⟨hb, heq⟩ := releaseHost_cases s
  · rw [heq, if_pos hb]
  · rw [heq, if_neg (Bool.eq_false_iff.mp hb), ← hb]

theorem exec_txcmp_of_lt (hactive : s.txActive = true) (hnext : s.txIdx + 1 < s.cfg.tableLen) :
    exec .txcmp s = .next { s with
      txIdx := s.txIdx + 1
      txPin := !s.txPin
      txCompare := s.txTable.getD (s.txIdx + 1) 0
      toggles := s.toggles ++ [⟨!s.txPin, s.txTable.getD (s.txIdx + 1) 0⟩] } := by
  simp only [exec, execTxcmp, if_pos hactive, if_pos hnext]
  rfl

theorem exec_txcmp_of_last (hactive : s.txActive = true) (hlast : s.cfg.tableLen ≤ s.txIdx + 1) :
    exec .txcmp s = .next { s with
      txIdx := s.txIdx + 1
      txActive := false
      hostBlocked := false
      responses := if s.hostBlocked then s.responses ++ [⟨.ok, .empty⟩] else s.responses } := by
  simp only [exec, execTxcmp, if_pos hactive, if_neg (Nat.not_lt.mpr hlast), releaseHost_eq]

/-! ### The run of events -/

/-- The records of the first `n` entries of a pulse table: levels alternate from the active one (R62). -/
def toggleTrain (table : List Word) (n : Nat) : List Toggle :=
  (List.range n).map fun j => ⟨decide (j % 2 = 0), table.getD j 0⟩

theorem toggleTrain_succ (table : List Word) (n : Nat) :
    toggleTrain table (n + 1) = toggleTrain table n ++ [⟨decide (n % 2 = 0), table.getD n 0⟩] := by
  simp [toggleTrain, List.range_succ]

theorem not_decide_even (k : Nat) : (!decide (k % 2 = 0)) = decide ((k + 1) % 2 = 0) := by
  rw [← decide_not, decide_eq_decide]
  omega

/-- A transmission that has come to entry `k` of its table, `s` being the state in which nothing of it has been put out
yet. -/
def State.atEntry (s : State) (k : Nat) : State :=
  { s with
    txIdx     := k
    txPin     := decide (k % 2 = 0)
    txCompare := s.txTable.getD k 0
    toggles   := s.toggles ++ toggleTrain s.txTable (k + 1) }

theorem exec_txcmp_atEntry (hactive : s.txActive = true) {k : Nat} (hk : k + 1 < s.cfg.tableLen) :
    exec .txcmp (s.atEntry k) = .next (s.atEntry (k + 1)) := by
  rw [exec_txcmp_of_lt (s := s.atEntry k) hactive hk]
  simp only [State.atEntry, not_decide_even, toggleTrain_succ s.txTable (k + 1), List.append_assoc]

theorem execAll_txcmp_atEntry (hactive : s.txActive = true) {k : Nat} (hk : k < s.cfg.tableLen) :
    execAll (List.replicate k .txcmp) (s.atEntry 0) = .next (s.atEntry k) := by
  induction k with
  | zero => rfl
  | succ k ih =>
    rw [List.replicate_succ']
    exact execAll_append_of_next (ih (by omega)) (execAll_cons_of_next (exec_txcmp_atEntry hactive hk) rfl)

/-- As many events as the table has entries: one less of them puts the table out, and the last one ends the
transmission. -/
theorem execAll_txcmp_tableLen (hactive : s.txActive = true) (hpos : 1 ≤ s.cfg.tableLen) :
    execAll (List.replicate s.cfg.tableLen .txcmp) (s.atEntry 0) =
      .next { s.atEntry (s.cfg.tableLen - 1) with
        txIdx := s.cfg.tableLen
        txActive := false
        hostBlocked := false
        responses := if s.hostBlocked then s.responses ++ [⟨.ok, .empty⟩] else s.responses } := by
  obtain ⟨k, hk⟩ : ∃ k, s.cfg.tableLen = k + 1 := ⟨_, (Nat.sub_add_cancel hpos).symm⟩
  rw [hk, List.replicate_succ']
  exact execAll_append_of_next (execAll_txcmp_atEntry hactive (by omega))
    (execAll_cons_of_next (exec_txcmp_of_last (s := s.atEntry k) hactive (Nat.le_of_eq hk)) rfl)

/-- What SEND and SEND.W leave on a free transmitter: a transmission at its entry 0. The host has its response, or waits
for it. -/
theorem sent_eq_atEntry {m : List Byte} {u : State} (hfree : s.txActive = false) (hhost : s.hostBlocked = false)
    (hsent : exec (.send m) s = .next u ∨ exec (.sendW m) s = .next u) :
    ∃ v : State, u = v.atEntry 0 ∧ v.cfg = s.cfg ∧ v.txTable = pulseTable s.cfg m ∧ v.txActive = true ∧
      v.toggles = s.toggles ∧
      (if v.hostBlocked then v.responses ++ [⟨.ok, .empty⟩] else v.responses) = s.responses ++ [⟨.ok, .empty⟩] := by
  obtain hsend | hsend := hsent
  · rw [exec_send_of_free hfree] at hsend
    cases hsend
    exact ⟨{ (s.startTransmission m).respond .ok .empty with toggles := s.toggles }, rfl, rfl, rfl, rfl, rfl,
      if_neg (Bool.eq_false_iff.mp hhost)⟩
  · rw [exec_sendW_of_free hfree] at hsend
    cases hsend
    exact ⟨{ s.startTransmission m with toggles := s.toggles, hostBlocked := true }, rfl, rfl, rfl, rfl, rfl, rfl⟩

end Sys2Proof.Machine
end

section
/-! SUPPORT. The decode walk over the nominal durations of a sample (spec/42_transceiver_rx.md R70,
spec/41_transceiver_tx.md R58). -/

namespace Sys2Proof.Machine

variable {c : Configuration} {m : List Byte}

/-! ### Nominal durations and the windows -/

theorem le_windowHi (nominal num : Nat) {den : Nat} (hden : 0 < den) : nominal ≤ windowHi nominal num den := by
  rw [windowHi, Nat.le_div_iff_mul_le hden, Nat.mul_add]
  omega

/-- A window that R53 builds contains its nominal duration, a nominal of 0 included. -/
theorem inWin_nominal (h : wellFormedConfig c = true) {w : Window} (hw : w ∈ windowsOf c) :
    inWin w w.nominal = true := by
  obtain ⟨-, hlo, hhi⟩ := mkWindow_bounds (wf_windows h w hw)
  obtain ⟨hnum, heps⟩ := wf_eps h
  rw [inWin_iff, InWindow, hlo, hhi]
  exact ⟨windowLo_le _ _ _, le_windowHi _ _ (hnum.trans heps)⟩

theorem brk_eq_one_iff : c.brk = 1 ↔ 0 < c.breakWindow.nominal.toNat := by
  simp [Configuration.brk]

/-! ### One duration -/

theorem pairStep_zero (h : wellFormedConfig c = true) (bit : Nat) (buf : List Byte) :
    pairStep c c.zeroWindow.nominal bit buf = .go (bit + 1) buf :=
  if_pos (inWin_nominal h (by simp [windowsOf]))

theorem pairStep_one (h : wellFormedConfig c = true) (bit : Nat) (buf : List Byte) :
    pairStep c c.oneWindow.nominal bit buf = .go (bit + 1) (setBitG buf bit) := by
  have hone := inWin_nominal h (w := c.oneWindow) (by simp [windowsOf])
  have hzero : ¬ inWin c.zeroWindow c.oneWindow.nominal = true := fun hz =>
    (wf_noCommonDuration h _).1 ⟨(inWin_iff _ _).mp hz, (inWin_iff _ _).mp hone⟩
  rw [pairStep, if_neg hzero, if_pos hone]

theorem pairStep_break (h : wellFormedConfig c = true) (hbrk : c.brk = 1) (bit : Nat) (buf : List Byte) :
    pairStep c c.breakWindow.nominal bit buf = .stop .done := by
  have hbreak := inWin_nominal h (w := c.breakWindow) (by simp [windowsOf])
  have hdisjoint := (wf_noCommonDuration h c.breakWindow.nominal).2 (brk_eq_one_iff.mp hbrk)
  simp only [← inWin_iff, hbreak, true_and, not_or] at hdisjoint
  obtain ⟨hzero, hone⟩ := hdisjoint
  rw [pairStep, if_neg hzero, if_neg hone, if_pos (by simp [boundary, hbrk, hbreak])]

/-- The data duration of bit `i` of sample 0, classified. -/
theorem pairStep_data (h : wellFormedConfig c = true) {i : Nat} (hi : i < c.bitCount) (bit : Nat) (buf : List Byte) :
    pairStep c (pulse c m (c.syncCount + 2 * i + 1)) bit buf =
      .go (bit + 1) (if getBitG m i then setBitG buf bit else buf) := by
  have hpulse := pulse_slot c m 0 (p := c.syncCount + 2 * i + 1) (by unfold Configuration.frameLen; omega)
  rw [Nat.zero_mul, Nat.zero_add, nominalOf_data c m 0 hi, getBit, Nat.zero_mul, Nat.zero_add] at hpulse
  rw [hpulse]
  cases getBitG m i with
  | false => exact pairStep_zero h bit buf
  | true => exact pairStep_one h bit buf

/-! ### The walk -/

/-- A message buffer that holds the first `n` bits of `m`, and zeros after them. -/
def HoldsBits (c : Configuration) (m : List Byte) (n : Nat) (buf : List Byte) : Prop :=
  buf.length = c.msgLen ∧ ∀ g, getBitG buf g = (decide (g < n) && getBitG m g)

theorem holdsBits_zeroBuffer (c : Configuration) (m : List Byte) : HoldsBits c m 0 (zeroBuffer c) := by
  refine ⟨List.length_replicate, fun g => ?_⟩
  rw [getBitG_eq, zeroBuffer, List.getD_eq_getElem?_getD, List.getElem?_getD_replicate_default_eq]
  simp

/-- The next bit, set where the message has a one. -/
theorem HoldsBits.succ {n : Nat} {buf : List Byte} (hbuf : HoldsBits c m n buf)
    (hn : n < c.sampleCount * c.bitCount) : HoldsBits c m (n + 1) (if getBitG m n then setBitG buf n else buf) := by
  obtain ⟨hlen, hbits⟩ := hbuf
  have hbyte : n / 8 < buf.length := by
    rw [hlen, Configuration.msgLen]
    omega
  cases hbit : getBitG m n with
  | false =>
    refine ⟨hlen, fun g => ?_⟩
    rw [if_neg Bool.false_ne_true, hbits]
    grind
  | true =>
    refine ⟨(length_setBitG buf n).trans hlen, fun g => ?_⟩
    rw [if_pos rfl, getBitG_setBitG buf n g hbyte, hbits]
    grind

/-- From bit `k` of sample 0 on, the walk takes the sample's bits and ends at the sample's last bit, if no more are
expected, or at the break. -/
theorem walk_sample (h : wellFormedConfig c = true) (hbrk : c.brk = 1) {n k : Nat} (hk : k + n = c.bitCount)
    {buf : List Byte} (hbuf : HoldsBits c m k buf) :
    ∃ buf', walk c ((List.range' k n).map (fun i => pulse c m (c.syncCount + 2 * i + 1)) ++ [c.breakWindow.nominal])
      k buf = (.done, buf') ∧ HoldsBits c m c.bitCount buf' := by
  induction n generalizing k buf with
  | zero =>
    subst hk
    exact ⟨buf, by simp [walk, pairStep_break h hbrk], hbuf⟩
  | succ n ih =>
    have hexpected : c.bitCount ≤ c.sampleCount * c.bitCount := Nat.le_mul_of_pos_left _ (wf_counts h).1
    have hnext := hbuf.succ (by omega)
    simp only [List.range'_succ, List.map_cons, List.cons_append, walk, pairStep_data h (show k < c.bitCount by omega)]
    by_cases hend : k + 1 = c.sampleCount * c.bitCount
    · have hlast : k + 1 = c.bitCount := by omega
      rw [hlast] at hnext
      exact ⟨_, if_pos hend, hnext⟩
    · rw [if_neg hend]
      exact ih (by omega) hnext

end Sys2Proof.Machine
end

section
/-! CERTIFICATE. The statements about the transmitter and the sample it sends, settled from the lemmas above. -/

namespace Sys2Proof.Machine

/-- Settles O5: what waits holds no other request, or the one that is taken is the first that is no command. -/
theorem blockedHostIssuesNoCommand : Obligations.BlockedHostIssuesNoCommand := by
  intro s waiting hblocked hidle
  refine ⟨fun hin => ?_, fun r rest hin hr => ?_⟩
  · exact step_of_blocked_none hblocked hidle (by rw [hin, firstNonCommand_commands])
  · exact step_of_blocked_some hblocked hidle (by rw [hin, firstNonCommand_commands_append waiting hr])

/-- Settles O21, kind of slot by kind of slot. -/
theorem pulseTableFollowsTheSlots : Obligations.PulseTableFollowsTheSlots := by
  intro c m s hs
  have hframe : c.frameLen = c.syncCount + 2 * (c.bitCount + c.brk) := rfl
  refine ⟨?_, fun p hp => ?_, fun i hi => ?_, fun i hi => ?_, fun hbrk => ?_⟩
  · rw [length_pulseTable, Configuration.tableLen, hframe, Nat.add_comm]
  · rw [getElem?_pulseTable_slot c m s hs (by omega), nominalOf_sync c m s hp]
  · rw [getElem?_pulseTable_slot c m s hs (by omega), nominalOf_separator]
  · rw [getElem?_pulseTable_slot c m s hs (by omega), nominalOf_data c m s hi]
  · rw [getElem?_pulseTable_slot c m s hs (by omega), nominalOf_break]

/-- Settles O23: the two branches of the event. -/
theorem txcmpWalksTheTable : Obligations.TxcmpWalksTheTable := by
  intro s hactive
  exact ⟨exec_txcmp_of_lt hactive, exec_txcmp_of_last hactive⟩

/-- Settles O24: the run starts at entry 0 of the message's table, and its end is read field by field. -/
theorem transmissionMakesNTransitions : Obligations.TransmissionMakesNTransitions := by
  intro m s u hfree hhost hpos hsent
  obtain ⟨v, rfl, hcfg, htable, hactive, htoggles, hresponses⟩ := sent_eq_atEntry hfree hhost hsent
  have hrun := execAll_txcmp_tableLen hactive (by rwa [hcfg])
  rw [hcfg] at hrun
  have hlevel : decide ((s.cfg.tableLen - 1) % 2 = 0) = decide (s.cfg.tableLen % 2 = 1) :=
    decide_eq_decide.mpr (by omega)
  refine ⟨_, hrun, ?_, rfl, rfl, hlevel, rfl, hresponses⟩
  simp only [State.atEntry, htoggles, htable, Nat.sub_add_cancel hpos, toggleTrain]

/-- Settles O29: the walk begins at bit 0 with a buffer of zeros. -/
theorem walkDecodesTheTransmittedSample : Obligations.WalkDecodesTheTransmittedSample := by
  intro c m h hbrk
  obtain ⟨buf, hwalk, hlen, hbits⟩ := walk_sample h hbrk (Nat.zero_add c.bitCount) (holdsBits_zeroBuffer c m)
  rw [← List.range_eq_range'] at hwalk
  exact ⟨buf, hwalk, hlen, hbits⟩

end Sys2Proof.Machine
end

section
/-! SUPPORT. The decode walk, duration by duration, for any configuration (spec/42_transceiver_rx.md R70,
spec/60_exceptions.md R128). -/

namespace Sys2Proof.Machine

variable {c : Configuration} {d : Word} {bit : Nat} {buf : List Byte}

/-! ### One duration -/

theorem boundary_iff (c : Configuration) (d : Word) : boundary c d = true ↔
    (c.brk = 1 ∧ InWindow c.breakWindow d) ∨ ∃ w ∈ c.syncWindows, InWindow w d := by
  simp only [boundary, Bool.or_eq_true, Bool.and_eq_true, decide_eq_true_eq, List.any_eq_true, inWin_iff]

theorem pairStep_of_zero (hzero : InWindow c.zeroWindow d) : pairStep c d bit buf = .go (bit + 1) buf :=
  if_pos ((inWin_iff _ _).mpr hzero)

theorem pairStep_of_one (hzero : ¬ InWindow c.zeroWindow d) (hone : InWindow c.oneWindow d) :
    pairStep c d bit buf = .go (bit + 1) (setBitG buf bit) := by
  simp [pairStep, inWin_iff, hzero, hone]

theorem pairStep_of_boundary (hzero : ¬ InWindow c.zeroWindow d) (hone : ¬ InWindow c.oneWindow d)
    (hedge : boundary c d = true) : pairStep c d bit buf = .stop .done := by
  simp [pairStep, inWin_iff, hzero, hone, hedge]

theorem pairStep_of_abort (hzero : ¬ InWindow c.zeroWindow d) (hone : ¬ InWindow c.oneWindow d)
    (hedge : ¬ boundary c d = true) (habort : c.malformedPolicy = .abort) :
    pairStep c d bit buf = .stop .malformed := by
  simp [pairStep, inWin_iff, hzero, hone, hedge, habort]

theorem pairStep_of_restartCount (hzero : ¬ InWindow c.zeroWindow d) (hone : ¬ InWindow c.oneWindow d)
    (hedge : ¬ boundary c d = true) (hrestart : c.malformedPolicy = .restartCount) :
    pairStep c d bit buf = .go 0 (zeroBuffer c) := by
  simp [pairStep, inWin_iff, hzero, hone, hedge, hrestart]

/-- A duration in the zero or the one window is one more bit, whatever the buffer becomes. -/
theorem pairStep_of_good (hgood : InWindow c.zeroWindow d ∨ InWindow c.oneWindow d) (bit : Nat) (buf : List Byte) :
    ∃ buf', pairStep c d bit buf = .go (bit + 1) buf' := by
  by_cases hzero : InWindow c.zeroWindow d
  · exact ⟨_, pairStep_of_zero hzero⟩
  · exact ⟨_, pairStep_of_one hzero (hgood.resolve_left hzero)⟩

/-! ### The walk -/

theorem walk_cons_of_stop {e : WalkEnd} (h : pairStep c d bit buf = .stop e) (ds : List Word) :
    walk c (d :: ds) bit buf = (e, buf) := by
  rw [walk, h]

theorem walk_cons_of_go {bit' : Nat} {buf' : List Byte} (h : pairStep c d bit buf = .go bit' buf') (ds : List Word) :
    walk c (d :: ds) bit buf =
      if bit' = c.sampleCount * c.bitCount then (.done, buf') else walk c ds bit' buf' := by
  rw [walk, h]

/-- Durations after the end of a walk are never looked at (R70, corner case 1). -/
theorem walk_append_of_ended (ds rest : List Word) (bit : Nat) (buf : List Byte)
    (hended : (walk c ds bit buf).1 ≠ .exhausted) : walk c (ds ++ rest) bit buf = walk c ds bit buf := by
  induction ds generalizing bit buf with
  | nil => exact absurd rfl hended
  | cons d ds ih =>
    rw [List.cons_append]
    cases hpair : pairStep c d bit buf with
    | stop e => rw [walk_cons_of_stop hpair, walk_cons_of_stop hpair]
    | go bit' buf' =>
      rw [walk_cons_of_go hpair] at hended ⊢
      rw [walk_cons_of_go hpair]
      split at hended
      · next hlast => rw [if_pos hlast, if_pos hlast]
      · next hmore => rw [if_neg hmore, if_neg hmore, ih _ _ hended]

/-- Good durations short of the expected bits are all taken, so the walk goes on behind them. -/
theorem walk_good_append (good rest : List Word) (bit : Nat) (buf : List Byte)
    (hfew : bit + good.length < c.sampleCount * c.bitCount)
    (hgood : ∀ x ∈ good, InWindow c.zeroWindow x ∨ InWindow c.oneWindow x) :
    ∃ buf', walk c (good ++ rest) bit buf = walk c rest (bit + good.length) buf' := by
  induction good generalizing bit buf with
  | nil => exact ⟨buf, rfl⟩
  | cons x good ih =>
    obtain ⟨hx, hgood⟩ := List.forall_mem_cons.mp hgood
    obtain ⟨bufx, hpair⟩ := pairStep_of_good hx bit buf
    have hlen : bit + (x :: good).length = bit + 1 + good.length := by rw [List.length_cons]; omega
    rw [hlen] at hfew ⊢
    rw [List.cons_append, walk_cons_of_go hpair, if_neg (by omega)]
    exact ih (bit + 1) bufx hfew hgood

end Sys2Proof.Machine
end

section
/-! SUPPORT. The receiver's event and its poll, case by case (spec/42_transceiver_rx.md R67, R68, R70). -/

namespace Sys2Proof.Machine

variable {s : State}

/-! ### An edge -/

theorem syncMatch_iff (s : State) : s.syncMatch = true ↔
    ∀ k < s.cfg.syncCount, InWindow (s.cfg.syncWindows.getD k ⟨0, 0, 0⟩)
      (s.ringRead (s.wrIdx + s.cfg.ringCap - s.cfg.syncCount + k)) := by
  simp only [State.syncMatch, List.all_eq_true, List.mem_range, inWin_iff]

theorem exec_rxedge_of_dropped (h : s.listening = false ∨ s.received = true) (now : Word) :
    exec (.rxedge now) s = .next s := by
  rcases h with h | h <;> simp [exec, execRxedge, h]

theorem exec_rxedge_of_preamble (hon : s.listening = true) (hfree : s.received = false)
    (hstate : s.rxState = .preamble) (now : Word) :
    exec (.rxedge now) s = .next (s.storeEdge now).searchSync := by
  simp [exec, execRxedge, hon, hfree, hstate]

theorem exec_rxedge_of_message (hon : s.listening = true) (hfree : s.received = false)
    (hstate : s.rxState = .message) (now : Word) :
    exec (.rxedge now) s = .next (s.storeEdge now).countEdge := by
  simp [exec, execRxedge, hon, hfree, hstate]

/-! ### The poll -/

theorem exec_chkmsg_of_none (h : s.received = false) : exec .chkmsg s = .next (s.respond .none .empty) := by
  simp [exec, execChkmsg, h]

/-- A pending message is drained into the buffer of a walk that is done, and into a zero buffer otherwise. -/
theorem exec_chkmsg_of_pending (h : s.received = true) {e : WalkEnd} {buf : List Byte}
    (hwalk : walk s.cfg s.dataDurations 0 (zeroBuffer s.cfg) = (e, buf)) :
    exec .chkmsg s = .next { s.drain (if e = .done then buf else zeroBuffer s.cfg) with
      responses := s.responses ++ [if e = .done then ⟨.ok, .buffer buf⟩ else ⟨.malformedFrame, .empty⟩] } := by
  simp only [exec, execChkmsg, if_pos h, hwalk]
  cases e <;> rfl

/-- After a poll no message is pending. -/
theorem received_of_exec_chkmsg {t : State} (h : exec .chkmsg s = .next t) : t.received = false := by
  cases hreceived : s.received with
  | false =>
    rw [exec_chkmsg_of_none hreceived] at h
    cases h
    exact hreceived
  | true =>
    rw [exec_chkmsg_of_pending hreceived rfl] at h
    cases h
    rfl

end Sys2Proof.Machine
end

section
/-! CERTIFICATE. The statements about the receiver, settled from the lemmas above. -/

namespace Sys2Proof.Machine

/-- Settles O26, by the state of the receiver; the sync test is that of the state after the store. -/
theorem rxedgeRunsTheReceiver : Obligations.RxedgeRunsTheReceiver := by
  intro s now ring wr sync past
  have hsync : (s.storeEdge now).syncMatch = true ↔ sync := syncMatch_iff (s.storeEdge now)
  refine ⟨fun h => exec_rxedge_of_dropped h now, fun hon hfree hstate => ?_, fun hon hfree hstate => ?_⟩
  · rw [exec_rxedge_of_preamble hon hfree hstate, ← hsync]
    obtain ⟨hmatch, heq⟩ | ⟨hmatch, heq⟩ := searchSync_cases (s.storeEdge now) <;> rw [heq, hmatch]
    · exact ⟨fun _ => rfl, fun h => absurd rfl h⟩
    · exact ⟨fun h => absurd h Bool.false_ne_true, fun _ => rfl⟩
  · refine ⟨_, exec_rxedge_of_message hon hfree hstate now, ?_, ?_, ?_, ?_, rfl⟩
    · exact fun h => if_pos (hsync.mpr h)
    · exact fun h => if_neg (hsync.not.mpr h)
    · exact fun h => ⟨if_pos h, if_pos h⟩
    · exact fun h => ⟨(if_neg h).trans hon, (if_neg h).trans hfree⟩

/-- Settles O27: the two answers of the poll, and the walk by what its first duration does. -/
theorem chkmsgDrainsTheMessage : Obligations.ChkmsgDrainsTheMessage := by
  intro s
  refine ⟨exec_chkmsg_of_none, fun h => ⟨_, _, rfl, exec_chkmsg_of_pending h rfl⟩, fun _ _ => rfl, ?_⟩
  intro d ds bit buf goOn zero one edge
  have hboundary : boundary s.cfg d = true ↔ edge := boundary_iff s.cfg d
  refine ⟨fun hz => ?_, fun hz ho => ?_, fun hz ho he => ?_, fun hz ho he hp => ?_, fun hz ho he hp => ?_⟩
  · exact walk_cons_of_go (pairStep_of_zero hz) ds
  · exact walk_cons_of_go (pairStep_of_one hz ho) ds
  · exact walk_cons_of_stop (pairStep_of_boundary hz ho (hboundary.mpr he)) ds
  · exact walk_cons_of_stop (pairStep_of_abort hz ho (hboundary.not.mpr he) hp) ds
  · exact walk_cons_of_go (pairStep_of_restartCount hz ho (hboundary.not.mpr he) hp) ds

/-- Settles O28: the first poll leaves no message pending. -/
theorem secondPollAnswersNone : Obligations.SecondPollAnswersNone :=
  fun _ _ h => exec_chkmsg_of_none (received_of_exec_chkmsg h)

/-- Settles O30: the walk takes the good durations and stops at the one in no window. -/
theorem malformedDurationAborts : Obligations.MalformedDurationAborts := by
  refine ⟨fun c => walk_append_of_ended, ?_⟩
  intro c good rest d buf hfew habort hgood hzero hone hbreak hsync
  have hedge : ¬ boundary c d = true := by
    rw [boundary_iff]
    rintro (⟨hbrk, hin⟩ | ⟨w, hw, hin⟩)
    · exact hbreak hbrk hin
    · exact hsync w hw hin
  rw [← Nat.zero_add good.length] at hfew
  obtain ⟨buf', hwalk⟩ := walk_good_append good (d :: rest) 0 buf hfew hgood
  rw [hwalk, walk_cons_of_stop (pairStep_of_abort hzero hone hedge habort)]

/-- Settles O25, operation by operation. -/
theorem receiverAttachAndDetach : Obligations.ReceiverAttachAndDetach :=
  fun _ => ⟨rfl, rfl⟩

end Sys2Proof.Machine
end

section
/-! SUPPORT. Fields of a message: a field is what its bits are, a write leaves every field apart from it, and a rebuilt
message has the fields of its payload (spec/30_encoding.md R41, R42, R44). -/

namespace Sys2Proof.Machine

/-! ### Fields of a buffer -/

theorem getField_congr {buf buf' : List Byte} {f : Field}
    (h : ∀ g, f.start ≤ g → g < f.start + f.width → getBitG buf' g = getBitG buf g) :
    getField buf' f = getField buf f := by
  rw [getField_eq_weightedSum, getField_eq_weightedSum]
  exact weightedSum_congr fun k hk => h _ (by omega) (by omega)

/-- A write leaves a field with which the written one has no bit in common. -/
theorem getField_putField_of_apart {buf : List Byte} {f g : Field} (hfit : f.start + f.width ≤ 8 * buf.length)
    (hapart : FieldsApart f g) (v : Nat) : getField (putField buf f v) g = getField buf g :=
  getField_congr fun k hlo hhi => getBitG_putField_of_not_mem hfit v (by unfold FieldsApart at hapart; omega)

theorem FieldsApart.symm {f g : Field} (h : FieldsApart f g) : FieldsApart g f := Or.symm h

theorem getBitG_append_left {p : List Byte} {g : Nat} (hg : g < 8 * p.length) (q : List Byte) :
    getBitG (p ++ q) g = getBitG p g := by
  simp only [getBitG_eq, List.getD_eq_getElem?_getD, List.getElem?_append_left (show g / 8 < p.length by omega)]

theorem getBitG_take {n g : Nat} (hg : g < 8 * n) (b : List Byte) : getBitG (b.take n) g = getBitG b g := by
  simp only [getBitG_eq, List.getD_eq_getElem?_getD, List.getElem?_take_of_lt (show g / 8 < n by omega)]

/-- Rebuilding a message from its payload keeps every field of the payload. -/
theorem getField_build_pay {c : Configuration} {b : List Byte} {f : Field} (hlen : c.payloadBytes ≤ b.length)
    (hf : f.start + f.width ≤ 8 * c.payloadBytes) : getField (build c (pay c b 0)) f = getField b f := by
  have hpay : pay c b 0 = b.take c.payloadBytes := by simp [pay]
  refine getField_congr fun g _ hg => ?_
  rw [hpay, build, List.append_assoc, List.append_assoc,
    getBitG_append_left (by rw [List.length_take_of_le hlen]; omega), getBitG_take (by omega)]

/-! ### The fields of a FollowMe -/

/-- The fields of a FollowMe, the five of a Command among them (R44). -/
def followMeFields (m : FieldMap) : List Field := commandFields m ++ [m.fmState, m.fmTemp]

section
variable {c : Configuration}

theorem wf_followMeField (h : wellFormedConfig c = true) (hv : c.variant = .heatPump) {f : Field}
    (hf : f ∈ followMeFields c.fieldMap) :
    1 ≤ f.width ∧ 8 ≤ f.start ∧ f.start + f.width ≤ 8 * c.payloadBytes := by
  refine wf_field h hv f ?_
  simp only [followMeFields, List.mem_append, List.mem_cons, List.not_mem_nil, or_false] at hf ⊢
  tauto

theorem wf_followMeFields_apart (h : wellFormedConfig c = true) (hv : c.variant = .heatPump) :
    (followMeFields c.fieldMap).Pairwise FieldsApart :=
  (pairwiseDisjoint_iff _).mp (wf_disjointFields h hv).2

end

/-! ### Fields of the owned message -/

/-- A well-formed heat-pump block that owns a message of the length of a buffer. -/
structure State.HoldsMessage (s : State) : Prop where
  config   : wellFormedConfig s.cfg = true
  heatPump : s.cfg.variant = .heatPump
  cmLen    : s.cm.length = s.cfg.msgLen

namespace State.HoldsMessage
variable {s : State}

theorem payloadBytes_le (h : s.HoldsMessage) : s.cfg.payloadBytes ≤ s.cm.length := by
  obtain ⟨-, -, -, hlen⟩ := wf_heatPump h.config h.heatPump
  have hcm := h.cmLen
  omega

theorem setField (h : s.HoldsMessage) (f : FieldMap → Field) (v : Nat) : (s.setField f v).HoldsMessage :=
  ⟨h.config, h.heatPump, by simpa using h.cmLen⟩

theorem field_fits (h : s.HoldsMessage) {f : Field} (hf : f ∈ followMeFields s.cfg.fieldMap) :
    f.start + f.width ≤ 8 * s.cm.length := by
  obtain ⟨-, -, hfit⟩ := wf_followMeField h.config h.heatPump hf
  have hlen := h.payloadBytes_le
  omega

/-- A written field reads as written. -/
theorem field_setField (h : s.HoldsMessage) {f : FieldMap → Field}
    (hf : f s.cfg.fieldMap ∈ followMeFields s.cfg.fieldMap) {v : Nat} (hv : v < 2 ^ (f s.cfg.fieldMap).width) :
    (s.setField f v).field f = v :=
  getField_putField (h.field_fits hf) hv

/-- A write of a field leaves the fields apart from it. -/
theorem field_setField_of_apart (h : s.HoldsMessage) {f g : FieldMap → Field}
    (hf : f s.cfg.fieldMap ∈ followMeFields s.cfg.fieldMap)
    (hapart : FieldsApart (f s.cfg.fieldMap) (g s.cfg.fieldMap)) (v : Nat) :
    (s.setField f v).field g = s.field g :=
  getField_putField_of_apart (h.field_fits hf) hapart v

end State.HoldsMessage

end Sys2Proof.Machine
end

section
/-! SUPPORT. The accessors: what their common behaviour answers, case by case, the values of the codes they read, and the
answer of each getter and setter (spec/43_codec.md R80, R81, R83 to R98). -/

namespace Sys2Proof.Machine

variable {s : State}

/-! ### The common behaviour of the getters -/

section
variable {α : Type} {ks : List Kind}

theorem getter_of_some (hv : s.isHeatPump) (hk : s.hasKind ks = true) {f : FieldMap → Field}
    {value : Nat → Option α} {a : α} (ha : value (s.field f) = some a) (result : α → Result) :
    s.getter ks f value result = .next (s.respond .ok (result a)) := by
  simp only [State.getter, heatPumpOnly_of_heatPump hv, if_pos hk, ha, complete_eq]

theorem getter_of_none (hv : s.isHeatPump) (hk : s.hasKind ks = true) {f : FieldMap → Field}
    {value : Nat → Option α} (hnone : value (s.field f) = none) (result : α → Result) :
    s.getter ks f value result = .next (s.respond .invalidField (.code (s.field f))) := by
  simp only [State.getter, heatPumpOnly_of_heatPump hv, if_pos hk, hnone, fail_eq]

theorem getter_of_wrongKind (hv : s.isHeatPump) (hk : s.hasKind ks = false) (f : FieldMap → Field)
    (value : Nat → Option α) (result : α → Result) :
    s.getter ks f value result = .next (s.respond .invalidField (.code 0)) := by
  simp [State.getter, heatPumpOnly_of_heatPump hv, hk]

/-! ### The common behaviour of the setters -/

theorem setter_of_some (hv : s.isHeatPump) (hk : s.hasKind ks = true) (t : State) :
    s.setter ks (some t) = .next (t.respond .ok .empty) := by
  simp only [State.setter, heatPumpOnly_of_heatPump hv, if_pos hk, complete_eq]

theorem setter_of_none (hv : s.isHeatPump) (ks : List Kind) :
    s.setter ks none = .next (s.respond .invalidField .empty) := by
  simp only [State.setter, heatPumpOnly_of_heatPump hv, fail_eq, ite_self]

theorem setter_of_wrongKind (hv : s.isHeatPump) (hk : s.hasKind ks = false) (write : Option State) :
    s.setter ks write = .next (s.respond .invalidField .empty) := by
  simp [State.setter, heatPumpOnly_of_heatPump hv, hk]

end

/-! ### The writes of SET.POWER and SET.SLEEP -/

/-- The write of SET.POWER (R84): powering off clears sleep. -/
def State.writePower (s : State) (v : Bool) : State :=
  if v then s.setField (·.power) 1 else (s.setField (·.power) 0).setField (·.sleep) 0

theorem exec_setPower (s : State) (v : Bool) :
    exec (.setPower v) s = s.setter commandKinds (some (s.writePower v)) := rfl

/-- The write of SET.SLEEP (R90): none for a message that may not sleep. -/
def State.writeSleep (s : State) (v : Bool) : State :=
  if s.field (·.power) = 0 ∨ s.mode? = some .fan ∨ s.mode? = some .dry then s
  else s.setField (·.sleep) (bitCode v)

theorem exec_setSleep (s : State) (v : Bool) :
    exec (.setSleep v) s = s.setter commandKinds (some (s.writeSleep v)) := rfl

/-! ### The values of codes -/

theorem bitOfCode_toNat (v : Bool) : bitOfCode v.toNat = some v := by
  cases v <;> rfl

theorem bitOfCode_of_two_le {k : Nat} (hk : 2 ≤ k) : bitOfCode k = none := by
  obtain ⟨n, rfl⟩ := Nat.exists_eq_add_of_le' hk
  rfl

theorem bitCode_eq_toNat (v : Bool) : bitCode v = v.toNat := by
  cases v <;> rfl

theorem getField_of_bit {buf : List Byte} {f : Field} (hf : f.width = 1) :
    getField buf f = (getBitG buf f.start).toNat := by
  simp [getField, hf, getBitsG]

theorem inRange_iff {lo hi t : Int} : inRange lo hi t = true ↔ lo ≤ t ∧ t ≤ hi := by
  simp [inRange]

theorem not_inRange_iff {lo hi t : Int} : ¬ inRange lo hi t = true ↔ t < lo ∨ hi < t := by
  rw [inRange_iff]
  omega

theorem optionOfCode_toNat {c : Configuration} {o : Byte} (ho : o ∈ c.optionSet) :
    optionOfCode c o.toNat = some o := by
  cases h : optionOfCode c o.toNat with
  | none => exact absurd (beq_self_eq_true _) (List.find?_eq_none.mp h o ho)
  | some x =>
    have hx : (x.toNat == o.toNat) = true := List.find?_some (p := fun y : Byte => y.toNat == o.toNat) h
    rw [BitVec.eq_of_toNat_eq (beq_iff_eq.mp hx)]

theorem optionOfCode_eq_none {c : Configuration} {k : Nat} (h : ∀ o ∈ c.optionSet, o.toNat ≠ k) :
    optionOfCode c k = none :=
  List.find?_eq_none.mpr fun o ho => by simpa using h o ho

/-! ### The getters -/

section
variable {ks : List Kind} {f : FieldMap → Field}

/-- GET.POWER and GET.SLEEP (R83, R89). -/
theorem bitGetter_answers (hv : s.isHeatPump) (hk : s.hasKind ks = true) :
    ((f s.cfg.fieldMap).width = 1 → s.getter ks f bitOfCode .bit =
      .next (s.respond .ok (.bit (getBitG s.cm (f s.cfg.fieldMap).start)))) ∧
    (∀ v : Bool, s.field f = v.toNat → s.getter ks f bitOfCode .bit = .next (s.respond .ok (.bit v))) ∧
    (2 ≤ s.field f →
      s.getter ks f bitOfCode .bit = .next (s.respond .invalidField (.code (s.field f)))) := by
  have hvalue : ∀ v : Bool, s.field f = v.toNat → s.getter ks f bitOfCode .bit = .next (s.respond .ok (.bit v)) :=
    fun v h => getter_of_some hv hk (by rw [h, bitOfCode_toNat]) _
  exact ⟨fun hwidth => hvalue _ (getField_of_bit hwidth), hvalue,
    fun h => getter_of_none hv hk (bitOfCode_of_two_le h) _⟩

/-- GET.MODE, GET.FAN and GET.FMSTATE (R85, R87, R97): a code decodes to the value that has it and to no other. -/
theorem enumGetter_answers {α : Type} {code : α → Nat} {value : Nat → Option α}
    (hcode : ∀ a k, value k = some a ↔ k = code a) (result : α → Result) (hv : s.isHeatPump)
    (hk : s.hasKind ks = true) :
    (∀ a, code a = s.field f → s.getter ks f value result = .next (s.respond .ok (result a))) ∧
    ((∀ a, code a ≠ s.field f) →
      s.getter ks f value result = .next (s.respond .invalidField (.code (s.field f)))) := by
  refine ⟨fun a ha => getter_of_some hv hk ((hcode a _).mpr ha.symm) _, fun h => getter_of_none hv hk ?_ _⟩
  exact Option.eq_none_iff_forall_ne_some.mpr fun a ha => h a ((hcode a _).mp ha).symm

/-- GET.TEMP and GET.FMTEMP (R91, R95): the temperature of the code, in its range. -/
theorem tempGetter_answers (hv : s.isHeatPump) (hk : s.hasKind ks = true) (offset lo hi : Int) :
    s.getter ks f (tempOfCode offset lo hi) .signed = .next { s with responses := s.responses ++
      [if lo ≤ s.field f + offset ∧ s.field f + offset ≤ hi then ⟨.ok, .signed (s.field f + offset)⟩
       else ⟨.invalidField, .code (s.field f)⟩] } := by
  split_ifs with h
  · exact getter_of_some hv hk (if_pos (inRange_iff.mpr h)) _
  · exact getter_of_none hv hk (if_neg (inRange_iff.not.mpr h)) _

/-- GET.OPTION (R93). -/
theorem optionGetter_answers (hv : s.isHeatPump) (hk : s.hasKind ks = true) :
    (∀ o ∈ s.cfg.optionSet, o.toNat = s.field f →
      s.getter ks f (optionOfCode s.cfg) .option = .next (s.respond .ok (.option o))) ∧
    ((∀ o ∈ s.cfg.optionSet, o.toNat ≠ s.field f) →
      s.getter ks f (optionOfCode s.cfg) .option = .next (s.respond .invalidField (.code (s.field f)))) :=
  ⟨fun o ho hcode => getter_of_some hv hk (by rw [← hcode, optionOfCode_toNat ho]) _,
    fun h => getter_of_none hv hk (optionOfCode_eq_none h) _⟩

end

/-- GET.TEMP does not interpret the field in mode Fan (R91). -/
theorem exec_getTemp_of_fan (hv : s.isHeatPump) (hk : s.hasKind commandKinds = true) (hfan : s.mode? = some .fan) :
    exec .getTemp s = .next (s.respond .invalidField (.code 0)) :=
  if_pos ⟨hv, hk, hfan⟩

theorem exec_getTemp_of_not (h : ¬ (s.hasKind commandKinds = true ∧ s.mode? = some .fan)) : exec .getTemp s =
    s.getter commandKinds (·.temp) (tempOfCode s.cfg.tempOffset s.cfg.tempMin s.cfg.tempMax) .signed :=
  if_neg fun hfan => h hfan.2

/-! ### The setters -/

/-- SET.TEMP past mode Fan, and SET.FMTEMP (R92, R96): the range, then the offset code. -/
theorem tempSetter_answers {ks : List Kind} (hv : s.isHeatPump) (hk : s.hasKind ks = true) (f : FieldMap → Field)
    (offset lo hi t : Int) :
    s.setter ks (if inRange lo hi t then some (s.setField f (tempCode offset t)) else none) =
      .next (if t < lo ∨ hi < t then s.respond .invalidField .empty
        else (s.setField f (tempCode offset t)).respond .ok .empty) := by
  by_cases h : t < lo ∨ hi < t
  · rw [if_pos h, if_neg (not_inRange_iff.mpr h), setter_of_none hv]
  · rw [if_neg h, if_pos (not_not.mp (not_inRange_iff.not.mpr h)), setter_of_some hv hk]

/-- SET.TEMP writes nothing in mode Fan (R92). -/
theorem exec_setTemp_of_fan (hv : s.isHeatPump) (hk : s.hasKind commandKinds = true) (hfan : s.mode? = some .fan)
    (t : Int) : exec (.setTemp t) s = .next (s.respond .ok .empty) := by
  rw [show exec (.setTemp t) s = execSetTemp t s from rfl, execSetTemp, if_pos hfan, setter_of_some hv hk]

theorem exec_setTemp_of_not (hfan : s.mode? ≠ some .fan) (t : Int) : exec (.setTemp t) s = s.setter commandKinds
    (if inRange s.cfg.tempMin s.cfg.tempMax t then some (s.setField (·.temp) (tempCode s.cfg.tempOffset t))
      else none) := by
  rw [show exec (.setTemp t) s = execSetTemp t s from rfl, execSetTemp, if_neg hfan]

/-- SET.OPTION (R94). -/
theorem exec_setOption (hv : s.isHeatPump) (hk : s.hasKind [.option] = true) (o : Byte) : exec (.setOption o) s =
    .next (if o ∈ s.cfg.optionSet then (s.setField (·.option) o.toNat).respond .ok .empty
      else s.respond .invalidField .empty) := by
  rw [show exec (.setOption o) s = execSetOption o s from rfl, execSetOption]
  simp only [List.contains_iff_mem]
  split_ifs
  · exact setter_of_some hv hk _
  · exact setter_of_none hv _

end Sys2Proof.Machine
end

section
/-! SUPPORT. The owned message: the generic variant, the message's kind, the check of a sample and the buffer that is
adopted (spec/43_codec.md R71, R72, R75 to R79). -/

namespace Sys2Proof.Machine

variable {s : State} {c : Configuration}

/-! ### The generic variant -/

theorem exec_codecOp_of_generic {i : Instr} (hi : isCodecOp i = true) (hv : s.cfg.variant = .generic) :
    exec i s = .next (s.respond .illegalOp .empty) := by
  cases i with
  | getTemp =>
    have hnot : ¬ (s.cfg.variant = .heatPump ∧ s.hasKind commandKinds ∧ s.mode? = some .fan) := by simp [hv]
    rw [show exec .getTemp s = execGetTemp s from rfl, execGetTemp, if_neg hnot]
    exact heatPumpOnly_of_generic hv _
  | isvalid | isvalidS | getmsg | optcmd | fmcmd | getseq | getts | getkind | getPower | setPower | getMode | setMode
  | getFan | setFan | getSleep | setSleep | setTemp | getOption | setOption | getFmtemp | setFmtemp | getFmstate
  | setFmstate => exact heatPumpOnly_of_generic hv _
  | _ => cases hi

/-! ### The kind of the message -/

theorem exec_getkind_of_some (hv : s.isHeatPump) {k : Kind} (h : s.kind? = some k) :
    exec .getkind s = .next (s.respond .ok (.kind k)) := by
  simp only [exec, execGetkind, heatPumpOnly_of_heatPump hv, h, complete_eq]

theorem exec_getkind_of_none (hv : s.isHeatPump) (h : s.kind? = none) : exec .getkind s =
    .next (s.respond .unsupportedInstruction (.code (kindCode s.cfg (pay s.cfg s.cm 0)).toNat)) := by
  simp only [exec, execGetkind, heatPumpOnly_of_heatPump hv, h, fail_eq]

/-- The kind that has the code, if none before it in the order Command, Option, FollowMe has it. -/
theorem kindOf_of_first {c : Configuration} {p : List Byte} {k : Kind} (hk : kindCode c p = kindValue c k)
    (hfirst : ∀ k' ∈ [Kind.command, .option, .followMe].takeWhile (· ≠ k), kindValue c k' ≠ kindValue c k) :
    kindOf c p = some k := by
  have hnot : ∀ k' ∈ [Kind.command, .option, .followMe].takeWhile (· ≠ k), kindCode c p ≠ kindValue c k' :=
    fun k' hk' h => hfirst k' hk' (h.symm.trans hk)
  cases k with
  | command => exact if_pos hk
  | option => exact (if_neg (hnot .command (by decide))).trans (if_pos hk)
  | followMe =>
    exact (if_neg (hnot .command (by decide))).trans ((if_neg (hnot .option (by decide))).trans (if_pos hk))

theorem kindOf_eq_none {c : Configuration} {p : List Byte} (h : ∀ k, kindCode c p ≠ kindValue c k) :
    kindOf c p = none :=
  (if_neg (h .command)).trans ((if_neg (h .option)).trans (if_neg (h .followMe)))

/-! ### The check of a sample (R75) -/

section
variable {b : List Byte} {k : Nat}

theorem check_of_wrongMarker (hmarker : (plainPayload c b k).headD 0 &&& c.markerMask ≠ c.markerValue) :
    check c b k = .invalidMarker :=
  if_pos hmarker

theorem check_of_wrongChecksum (hmarker : (plainPayload c b k).headD 0 &&& c.markerMask = c.markerValue)
    (hsum : checksum c (pay c b k) ≠ cs c b k) : check c b k = .checksumMismatch :=
  (if_neg (not_not.mpr hmarker)).trans (if_pos hsum)

theorem check_eq_good_iff : check c b k = .good ↔
    (plainPayload c b k).headD 0 &&& c.markerMask = c.markerValue ∧ checksum c (pay c b k) = cs c b k := by
  refine ⟨fun h => ?_, fun ⟨hmarker, hsum⟩ => (if_neg (not_not.mpr hmarker)).trans (if_neg (not_not.mpr hsum))⟩
  by_cases hmarker : (plainPayload c b k).headD 0 &&& c.markerMask = c.markerValue
  · refine ⟨hmarker, by_contra fun hsum => ?_⟩
    simp [check_of_wrongChecksum hmarker hsum] at h
  · simp [check_of_wrongMarker hmarker] at h

/-- The status of a failed check: the marker is looked at first. -/
theorem checkStatus_of_not_good (h : check c b k ≠ .good) : checkStatus (check c b k) =
    if (plainPayload c b k).headD 0 &&& c.markerMask = c.markerValue then .checksumMismatch else .invalidMarker := by
  split_ifs with hmarker
  · rw [check_of_wrongChecksum hmarker fun hsum => h (check_eq_good_iff.mpr ⟨hmarker, hsum⟩)]
    rfl
  · rw [check_of_wrongMarker hmarker]
    rfl

end

/-! ### The sample that validates (R76) -/

theorem chooseSample_of_zero {b : List Byte} (h : check c b 0 = .good) : chooseSample c b = some 0 :=
  if_pos h

theorem chooseSample_of_one {b : List Byte} (h0 : check c b 0 ≠ .good) (h1 : check c b 1 = .good) :
    chooseSample c b = some 1 :=
  (if_neg h0).trans (if_pos h1)

theorem chooseSample_of_none {b : List Byte} (h0 : check c b 0 ≠ .good) (h1 : check c b 1 ≠ .good) :
    chooseSample c b = none :=
  (if_neg h0).trans (if_neg h1)

/-- A buffer without a valid sample is answered with a failure of sample 0. -/
theorem check_zero_of_chooseSample_none {b : List Byte} (h : chooseSample c b = none) : check c b 0 ≠ .good := by
  intro h0
  rw [chooseSample_of_zero h0] at h
  cases h

theorem adoptStatus_eq (c : Configuration) (p : List Byte) : adoptStatus c p =
    if kindCode c p ∈ [c.kindCommand, c.kindOption, c.kindFollowMe] then .ok else .unsupportedInstruction := by
  simp only [adoptStatus, kindOf_isSome]

theorem validate_of_some {b : List Byte} {v : Nat} (h : chooseSample s.cfg b = some v) (now : Word) :
    s.validate b now = .next ((s.adopt (plainPayload s.cfg b v) v now).respond
      (adoptStatus s.cfg (plainPayload s.cfg b v)) (.buffer b)) := by
  rw [State.validate, h]

theorem validate_of_none {b : List Byte} (h : chooseSample s.cfg b = none) (now : Word) :
    s.validate b now = .next (s.respond (checkStatus (check s.cfg b 0)) (.buffer b)) := by
  rw [State.validate, h, fail_eq]

/-! ### The buffer that is adopted, and GETMSG (R76 to R78) -/

theorem exec_getmsg (hv : s.isHeatPump) : exec .getmsg s =
    .next ({ s with cm := build s.cfg (pay s.cfg s.cm 0) : State }.respond .ok
      (.buffer (build s.cfg (pay s.cfg s.cm 0)))) :=
  heatPumpOnly_of_heatPump hv _

theorem exec_isvalid (hv : s.isHeatPump) (b : List Byte) (now : Word) :
    exec (.isvalid b now) s = s.validate b now :=
  heatPumpOnly_of_heatPump hv _

theorem exec_isvalidS (hv : s.isHeatPump) (b : List Byte) (now : Word) :
    exec (.isvalidS b now) s = s.validate (stamp s.cfg b) now :=
  heatPumpOnly_of_heatPump hv _

/-- A message built from a payload with the marker validates by its sample 0, and that payload is adopted. -/
theorem exec_isvalid_of_built (hv : s.isHeatPump) {p : List Byte} (hp : p.length = s.cfg.payloadBytes)
    (hmarker : p.headD 0 &&& s.cfg.markerMask = s.cfg.markerValue) (now : Word) :
    exec (.isvalid (build s.cfg p) now) s =
      .next ((s.adopt p 0 now).respond (adoptStatus s.cfg p) (.buffer (build s.cfg p))) := by
  have hplain : plainPayload s.cfg (build s.cfg p) 0 = p := (if_pos rfl).trans (pay_build_zero hp)
  rw [exec_isvalid hv, validate_of_some (chooseSample_of_zero (check_build hp hmarker).1), hplain]

/-- GETMSG changes nothing of a message that is built. -/
theorem exec_getmsg_of_built (hv : s.isHeatPump) {p : List Byte} (hp : p.length = s.cfg.payloadBytes)
    (hcm : s.cm = build s.cfg p) : exec .getmsg s = .next (s.respond .ok (.buffer (build s.cfg p))) := by
  rw [exec_getmsg hv, hcm, pay_build_zero hp, ← hcm]

/-- The response that was put out last is the one that was given. -/
theorem respond_responses_inj {st st' : Status} {r r' : Result}
    (h : (s.respond st r).responses = s.responses ++ [⟨st', r'⟩]) : st = st' ∧ r = r' := by
  simpa using h

/-- ISVALID answers OK or UNSUPPORTED_INSTRUCTION for a buffer that it adopts, and only then. -/
theorem adopted_of_exec_isvalid {t : State} {b : List Byte} {now : Word} {st : Status} {r : Result}
    (hv : s.isHeatPump) (ht : exec (.isvalid b now) s = .next t) (hr : t.responses = s.responses ++ [⟨st, r⟩])
    (hst : st = .ok ∨ st = .unsupportedInstruction) :
    ∃ v, chooseSample s.cfg b = some v ∧ st = adoptStatus s.cfg (plainPayload s.cfg b v) ∧
      t = (s.adopt (plainPayload s.cfg b v) v now).respond st (.buffer b) := by
  rw [exec_isvalid hv] at ht
  cases hchoose : chooseSample s.cfg b with
  | none =>
    rw [validate_of_none hchoose] at ht
    cases ht
    obtain ⟨rfl, -⟩ := respond_responses_inj hr
    rw [checkStatus_of_not_good (check_zero_of_chooseSample_none hchoose)] at hst
    split_ifs at hst <;> simp at hst
  | some v =>
    rw [validate_of_some hchoose] at ht
    cases ht
    obtain ⟨rfl, -⟩ := respond_responses_inj (s := s.adopt _ v now) hr
    exact ⟨v, rfl, rfl, rfl⟩

/-- A message that is built from a payload with the marker: GETMSG answers it as it is, and it validates by its sample 0
(R78). -/
theorem validates_again_of_built (hv : s.isHeatPump) {p : List Byte} (hp : p.length = s.cfg.payloadBytes)
    (hmarker : p.headD 0 &&& s.cfg.markerMask = s.cfg.markerValue) (hcm : s.cm = build s.cfg p) (now : Word) :
    ∃ (v w : State) (g : List Byte),
      exec .getmsg s = .next v ∧ v.responses = s.responses ++ [⟨.ok, .buffer g⟩] ∧
      exec (.isvalid g now) v = .next w ∧ w.responses = v.responses ++ [⟨adoptStatus s.cfg p, .buffer g⟩] ∧
      w.validSample = false ∧ pay s.cfg w.cm 0 = pay s.cfg s.cm 0 ∧ check s.cfg g 1 = .good := by
  exact ⟨_, _, _, exec_getmsg_of_built hv hp hcm, rfl, exec_isvalid_of_built (s := s.respond _ _) hv hp hmarker now,
    rfl, rfl, by rw [hcm]; rfl, (check_build hp hmarker).2⟩

end Sys2Proof.Machine
end

section
/-! SUPPORT. The messages that OPTCMD and FMCMD build: several fields written one after another, the payloads, and their
instruction byte (spec/43_codec.md R99, R100; spec/30_encoding.md R43, R44). -/

namespace Sys2Proof.Machine

variable {s : State} {c : Configuration}

/-! ### Several writes -/

/-- Fields written one after another. -/
def putFields (buf : List Byte) (ws : List (Field × Nat)) : List Byte :=
  ws.foldl (fun b w => putField b w.1 w.2) buf

theorem putFields_cons (buf : List Byte) (w : Field × Nat) (ws : List (Field × Nat)) :
    putFields buf (w :: ws) = putFields (putField buf w.1 w.2) ws := rfl

@[simp] theorem length_putFields (buf : List Byte) (ws : List (Field × Nat)) :
    (putFields buf ws).length = buf.length := by
  induction ws generalizing buf with
  | nil => rfl
  | cons w ws ih => rw [putFields_cons, ih, length_putField]

theorem headD_putFields (buf : List Byte) {ws : List (Field × Nat)} (hws : ∀ w ∈ ws, 8 ≤ w.1.start) :
    (putFields buf ws).headD 0 = buf.headD 0 := by
  induction ws generalizing buf with
  | nil => rfl
  | cons w ws ih =>
    obtain ⟨hw, hws⟩ := List.forall_mem_cons.mp hws
    rw [putFields_cons, ih _ hws, headD_putField hw]

/-- A bit outside every written field stays. -/
theorem getBitG_putFields {buf : List Byte} {ws : List (Field × Nat)}
    (hfit : ∀ w ∈ ws, w.1.start + w.1.width ≤ 8 * buf.length) {g : Nat}
    (hg : ∀ w ∈ ws, g < w.1.start ∨ w.1.start + w.1.width ≤ g) :
    getBitG (putFields buf ws) g = getBitG buf g := by
  induction ws generalizing buf with
  | nil => rfl
  | cons w ws ih =>
    obtain ⟨hw, hws⟩ := List.forall_mem_cons.mp hg
    obtain ⟨hwfit, hwsfit⟩ := List.forall_mem_cons.mp hfit
    rw [putFields_cons, ih (by simpa using hwsfit) hws, getBitG_putField_of_not_mem hwfit _ hw]

/-- Fields with no bit in common all read as written. -/
theorem getField_putFields {buf : List Byte} {ws : List (Field × Nat)}
    (hfit : ∀ w ∈ ws, w.1.start + w.1.width ≤ 8 * buf.length) (hvalue : ∀ w ∈ ws, w.2 < 2 ^ w.1.width)
    (hapart : (ws.map Prod.fst).Pairwise FieldsApart) : ∀ w ∈ ws, getField (putFields buf ws) w.1 = w.2 := by
  induction ws generalizing buf with
  | nil => simp
  | cons w ws ih =>
    obtain ⟨hwfit, hwsfit⟩ := List.forall_mem_cons.mp hfit
    obtain ⟨hwvalue, hwsvalue⟩ := List.forall_mem_cons.mp hvalue
    obtain ⟨hwapart, hwsapart⟩ := List.pairwise_cons.mp hapart
    have hfit' : ∀ x ∈ ws, x.1.start + x.1.width ≤ 8 * (putField buf w.1 w.2).length := by simpa using hwsfit
    have hfirst : getField (putFields (putField buf w.1 w.2) ws) w.1 = getField (putField buf w.1 w.2) w.1 :=
      getField_congr fun g hlo hhi => getBitG_putFields hfit' fun x hx => by
        have hx := hwapart x.1 (List.mem_map_of_mem hx)
        unfold FieldsApart at hx
        omega
    exact List.forall_mem_cons.mpr
      ⟨hfirst.trans (getField_putField hwfit hwvalue), ih hfit' hwsvalue hwsapart⟩

/-! ### The messages that are built -/

theorem headD_blankPayload (c : Configuration) (b : Byte) : (blankPayload c b).headD 0 = b := rfl

theorem getBitG_blankPayload (c : Configuration) (b : Byte) {g : Nat} (hg : 8 ≤ g) :
    getBitG (blankPayload c b) g = false := by
  obtain ⟨k, hk⟩ : ∃ k, g / 8 = k + 1 := ⟨g / 8 - 1, by omega⟩
  have hzero : (List.replicate (c.payloadBytes - 1) (0 : Byte)).getD k 0 = 0 := by
    rw [List.getD_eq_getElem?_getD, List.getElem?_replicate]
    split <;> rfl
  rw [getBitG_eq, blankPayload, hk, List.getD_cons_succ, hzero]
  exact BitVec.getLsbD_zero

/-- What FMCMD writes into the blank payload (R100). -/
def followMeWrites (c : Configuration) (p : List Byte) (st : FmState) (t : Int) : List (Field × Nat) :=
  (commandFields c.fieldMap).map (fun f => (f, getField p f)) ++
    [(c.fieldMap.fmState, fmStateCodeOf c st), (c.fieldMap.fmTemp, tempCode c.fmTempOffset t)]

theorem followMePayload_eq (c : Configuration) (p : List Byte) (st : FmState) (t : Int) :
    followMePayload c p st t =
      putFields (blankPayload c ((p.headD 0 &&& ~~~c.kindMask) ||| c.kindFollowMe)) (followMeWrites c p st t) := rfl

theorem followMeWrites_fields (c : Configuration) (p : List Byte) (st : FmState) (t : Int) :
    (followMeWrites c p st t).map Prod.fst = followMeFields c.fieldMap := rfl

theorem followMeWrites_mem {p : List Byte} {st : FmState} {t : Int} {w : Field × Nat}
    (hw : w ∈ followMeWrites c p st t) : w.1 ∈ followMeFields c.fieldMap :=
  followMeWrites_fields c p st t ▸ List.mem_map_of_mem hw

/-- Every write of FMCMD stays inside the payload, past its instruction byte. -/
theorem followMeWrites_fit (h : wellFormedConfig c = true) (hv : c.variant = .heatPump) {p : List Byte} {st : FmState}
    {t : Int} : ∀ w ∈ followMeWrites c p st t, 8 ≤ w.1.start ∧ w.1.start + w.1.width ≤ 8 * c.payloadBytes :=
  fun _ hw => (wf_followMeField h hv (followMeWrites_mem hw)).2

/-- Every value FMCMD writes is a code of its field, if the temperature is in range. -/
theorem followMeWrites_lt (h : wellFormedConfig c = true) (hv : c.variant = .heatPump) (p : List Byte) (st : FmState)
    {t : Int} (hlo : c.fmTempMin ≤ t) (hhi : t ≤ c.fmTempMax) : ∀ w ∈ followMeWrites c p st t, w.2 < 2 ^ w.1.width := by
  obtain ⟨-, hmin, hmax⟩ := wf_temperatures h hv
  have htemp : tempCode c.fmTempOffset t < 2 ^ c.fieldMap.fmTemp.width := by
    rw [tempCode, Int.toNat_lt (by omega)]
    push_cast
    omega
  intro w hw
  simp only [followMeWrites, List.mem_append, List.mem_map, List.mem_cons, List.not_mem_nil, or_false] at hw
  obtain ⟨f, -, rfl⟩ | rfl | rfl := hw
  · exact getField_lt p f
  · exact (wf_fmStateCode h hv st).1
  · exact htemp

section
variable (h : wellFormedConfig c = true) (hv : c.variant = .heatPump) (p : List Byte) (st : FmState) (t : Int)
include h hv

theorem length_followMePayload : (followMePayload c p st t).length = c.payloadBytes := by
  obtain ⟨-, -, hpb, -⟩ := wf_heatPump h hv
  rw [followMePayload_eq, length_putFields, length_blankPayload hpb]

/-- The instruction byte is the snapshot's with the kind replaced. -/
theorem headD_followMePayload :
    (followMePayload c p st t).headD 0 = (p.headD 0 &&& ~~~c.kindMask) ||| c.kindFollowMe := by
  rw [followMePayload_eq, headD_putFields _ fun w hw => (followMeWrites_fit h hv w hw).1, headD_blankPayload]

/-- The fields read as FMCMD wrote them. -/
theorem getField_followMePayload (hlo : c.fmTempMin ≤ t) (hhi : t ≤ c.fmTempMax) :
    ∀ w ∈ followMeWrites c p st t, getField (followMePayload c p st t) w.1 = w.2 := by
  obtain ⟨-, -, hpb, -⟩ := wf_heatPump h hv
  rw [followMePayload_eq]
  refine getField_putFields (fun w hw => ?_) (followMeWrites_lt h hv p st hlo hhi) (wf_followMeFields_apart h hv)
  rw [length_blankPayload hpb]
  exact (followMeWrites_fit h hv w hw).2

/-- Every bit past the instruction byte that no field holds is 0. -/
theorem getBitG_followMePayload {g : Nat} (hg : 8 ≤ g)
    (hout : ∀ f ∈ followMeFields c.fieldMap, g < f.start ∨ f.start + f.width ≤ g) :
    getBitG (followMePayload c p st t) g = false := by
  obtain ⟨-, -, hpb, -⟩ := wf_heatPump h hv
  rw [followMePayload_eq, getBitG_putFields (fun w hw => ?_) fun w hw => hout _ (followMeWrites_mem hw),
    getBitG_blankPayload _ _ hg]
  rw [length_blankPayload hpb]
  exact (followMeWrites_fit h hv w hw).2

end

/-! ### The instruction byte of what is built (R43) -/

/-- The kind replaced in a byte is the kind the mask shows. -/
theorem replaceKind_and_kindMask {b kind kindMask : Byte} (hkind : kind &&& ~~~kindMask = 0) :
    ((b &&& ~~~kindMask) ||| kind) &&& kindMask = kind := by
  rw [BitVec.or_comm]
  exact or_and_eq_left hkind (kindMask := ~~~kindMask) (by simp [BitVec.and_assoc]) (by simp)

/-- Replacing the kind leaves what a mask shows that shares no bit with the kind's. -/
theorem replaceKind_and_markerMask {b kind markerMask kindMask : Byte} (hkind : kind &&& ~~~kindMask = 0)
    (hmasks : markerMask &&& kindMask = 0) :
    ((b &&& ~~~kindMask) ||| kind) &&& markerMask = b &&& markerMask := by
  apply BitVec.eq_of_getLsbD_eq
  intro i hi
  have hk := congrArg (·.getLsbD i) hkind
  have hd := congrArg (·.getLsbD i) hmasks
  simp only [BitVec.getLsbD_and, BitVec.getLsbD_or, BitVec.getLsbD_not, hi, decide_true, Bool.true_and] at hk hd ⊢
  grind

/-- A built message passes the check in both samples and is of the kind its payload has. -/
theorem built_is_valid {p : List Byte} {kind : Byte} (hp : p.length = c.payloadBytes)
    (hmarker : p.headD 0 &&& c.markerMask = c.markerValue) (hkind : p.headD 0 &&& c.kindMask = kind) :
    check c (build c p) 0 = .good ∧ check c (build c p) 1 = .good ∧ kindCode c (pay c (build c p) 0) = kind := by
  rw [pay_build_zero hp]
  exact ⟨(check_build hp hmarker).1, (check_build hp hmarker).2, hkind⟩

/-! ### OPTCMD and FMCMD -/

/-- The payload OPTCMD builds from (R99). -/
def optionPayload (c : Configuration) (o : Byte) : List Byte :=
  putField (blankPayload c (c.markerValue ||| c.kindOption)) c.fieldMap.option o.toNat

theorem exec_optcmd (hv : s.isHeatPump) (o : Byte) : exec (.optcmd o) s =
    .next (if o ∈ s.cfg.optionSet then s.respond .ok (.buffer (build s.cfg (optionPayload s.cfg o)))
      else s.respond .invalidField .empty) := by
  rw [show exec (.optcmd o) s = execOptcmd o s from rfl, execOptcmd, heatPumpOnly_of_heatPump hv, optionMessage]
  simp only [List.contains_iff_mem]
  split_ifs <;> rfl

section
variable {prev : List Byte} (t : Int)

theorem exec_fmcmd_of_none (hv : s.isHeatPump) (h : chooseSample s.cfg prev = none) (st : Option FmState) :
    exec (.fmcmd prev st t) s = .next (s.respond (checkStatus (check s.cfg prev 0)) .empty) := by
  rw [show exec (.fmcmd prev st t) s = execFmcmd prev st t s from rfl, execFmcmd, heatPumpOnly_of_heatPump hv, h,
    fail_eq]

/-- What FMCMD asks of a snapshot's payload and of the temperature (R100). -/
def FmcmdAccepts (c : Configuration) (p : List Byte) (t : Int) : Prop :=
  kindCode c p ∈ [c.kindCommand, c.kindFollowMe] ∧ c.fmTempMin ≤ t ∧ t ≤ c.fmTempMax

theorem fmcmdAccepts_iff (c : Configuration) (p : List Byte) :
    (isOfKind c p commandKinds && inRange c.fmTempMin c.fmTempMax t) = true ↔ FmcmdAccepts c p t := by
  rw [Bool.and_eq_true, isOfKind_iff, inRange_iff, FmcmdAccepts]
  simp [commandKinds, kindValue]

theorem exec_fmcmd_of_accepted (hv : s.isHeatPump) {v : Nat} (h : chooseSample s.cfg prev = some v)
    (hyes : FmcmdAccepts s.cfg (plainPayload s.cfg prev v) t) (st : FmState) : exec (.fmcmd prev (some st) t) s =
      .next (s.respond .ok (.buffer (build s.cfg (followMePayload s.cfg (plainPayload s.cfg prev v) st t)))) := by
  simp only [exec, execFmcmd, heatPumpOnly_of_heatPump hv, h, if_pos ((fmcmdAccepts_iff t _ _).mpr hyes), complete_eq]

theorem exec_fmcmd_of_refused (hv : s.isHeatPump) {v : Nat} (h : chooseSample s.cfg prev = some v)
    (hno : ¬ FmcmdAccepts s.cfg (plainPayload s.cfg prev v) t) (st : Option FmState) :
    exec (.fmcmd prev st t) s = .next (s.respond .invalidField .empty) := by
  simp only [exec, execFmcmd, heatPumpOnly_of_heatPump hv, h, if_neg ((fmcmdAccepts_iff t _ _).not.mpr hno), fail_eq]

/-- An operand that names no state is refused, after the checks of the snapshot. -/
theorem exec_fmcmd_of_noState (hv : s.isHeatPump) {v : Nat} (h : chooseSample s.cfg prev = some v) :
    exec (.fmcmd prev none t) s = .next (s.respond .invalidField .empty) := by
  simp only [exec, execFmcmd, heatPumpOnly_of_heatPump hv, h, fail_eq, ite_self]

end

/-- FMCMD answers OK with the message built from the payload of a sample that validates, and with no other. -/
theorem accepted_of_exec_fmcmd (hv : s.isHeatPump) {prev b : List Byte} {st : Option FmState} {t : Int} {u : State}
    (hu : exec (.fmcmd prev st t) s = .next u) (hresponse : u.responses = s.responses ++ [⟨.ok, .buffer b⟩]) :
    ∃ v x, chooseSample s.cfg prev = some v ∧
      b = build s.cfg (followMePayload s.cfg (plainPayload s.cfg prev v) x t) := by
  have hrefused : exec (.fmcmd prev st t) s ≠ .next (s.respond .invalidField .empty) := by
    intro h
    rw [hu] at h
    cases h
    cases (respond_responses_inj hresponse).1
  cases hchoose : chooseSample s.cfg prev with
  | none =>
    rw [exec_fmcmd_of_none t hv hchoose] at hu
    cases hu
    cases (respond_responses_inj hresponse).2
  | some v =>
    by_cases hyes : FmcmdAccepts s.cfg (plainPayload s.cfg prev v) t
    · cases st with
      | none => exact absurd (exec_fmcmd_of_noState t hv hchoose) hrefused
      | some x =>
        rw [exec_fmcmd_of_accepted t hv hchoose hyes] at hu
        cases hu
        cases (respond_responses_inj hresponse).2
        exact ⟨v, x, rfl, rfl⟩
    · exact absurd (exec_fmcmd_of_refused t hv hchoose hyes st) hrefused

section
variable (h : wellFormedConfig c = true) (hv : c.variant = .heatPump) (hfits : instructionByteFits c)
include h hv hfits

/-- What OPTCMD builds is a valid Option (R99, R75). -/
theorem optionMessage_is_valid (o : Byte) :
    check c (build c (optionPayload c o)) 0 = .good ∧ check c (build c (optionPayload c o)) 1 = .good ∧
      kindCode c (pay c (build c (optionPayload c o)) 0) = c.kindOption := by
  obtain ⟨hmarker, hkinds⟩ := hfits
  have hkind := hkinds c.kindOption (by simp)
  have hmasks := wf_instructionByte h hv
  obtain ⟨-, -, hpb, -⟩ := wf_heatPump h hv
  obtain ⟨-, hstart, -⟩ := wf_field h hv c.fieldMap.option (by simp)
  have hhead : (optionPayload c o).headD 0 = c.markerValue ||| c.kindOption := headD_putField hstart _ _
  refine built_is_valid (by rw [optionPayload, length_putField, length_blankPayload hpb]) ?_ ?_ <;> rw [hhead]
  · exact or_and_eq_left hmarker hkind hmasks
  · rw [BitVec.or_comm]
    exact or_and_eq_left hkind hmarker (by rw [BitVec.and_comm, hmasks])

/-- What FMCMD builds from a payload with the marker is a valid FollowMe (R100, R75). -/
theorem followMeMessage_is_valid {p : List Byte} (hp : p.headD 0 &&& c.markerMask = c.markerValue) (st : FmState)
    (t : Int) :
    check c (build c (followMePayload c p st t)) 0 = .good ∧ check c (build c (followMePayload c p st t)) 1 = .good ∧
      kindCode c (pay c (build c (followMePayload c p st t)) 0) = c.kindFollowMe := by
  have hkind := hfits.2 c.kindFollowMe (by simp)
  refine built_is_valid (length_followMePayload h hv p st t) ?_ ?_ <;> rw [headD_followMePayload h hv]
  · exact (replaceKind_and_markerMask hkind (wf_instructionByte h hv)).trans hp
  · exact replaceKind_and_kindMask hkind

end

end Sys2Proof.Machine
end

section
/-! SUPPORT. The cross-field invariants of spec/43_codec.md R82, on the values of the four fields they speak of: what
each write makes of the four values, and that every setter keeps the invariants. -/

namespace Sys2Proof.Machine

variable {s : State}

/-! ### The four values -/

/-- The codes of the fields the invariants speak of. -/
structure CrossValues where
  power : Nat
  sleep : Nat
  mode  : Nat
  fan   : Nat

/-- I1 and I2 of R82 on the codes, and a power field that holds a bit (R44). -/
def CrossValues.Ok (c : Configuration) (x : CrossValues) : Prop :=
  ((modeOfCode c x.mode = some .auto ∨ modeOfCode c x.mode = some .dry) → fanOfCode c x.fan = some .auto) ∧
  (x.sleep = 1 → x.power = 1 ∧ modeOfCode c x.mode ≠ some .fan ∧ modeOfCode c x.mode ≠ some .dry) ∧
  x.power ≤ 1

/-- The four codes of the owned message. -/
def State.crossValues (s : State) : CrossValues :=
  ⟨s.field (·.power), s.field (·.sleep), s.field (·.mode), s.field (·.fan)⟩

@[simp] theorem State.respond_crossValues (s : State) (st : Status) (r : Result) :
    (s.respond st r).crossValues = s.crossValues := rfl

theorem crossValues_ok_iff (s : State) :
    s.crossValues.Ok s.cfg ↔ s.crossFieldOk ∧ s.field (·.power) ≤ 1 :=
  and_assoc.symm

/-! ### What each write makes of the four values -/

/-- The four fields share no bit with each other. -/
structure CrossFieldsApart (m : FieldMap) : Prop where
  power_sleep : FieldsApart m.power m.sleep
  power_mode  : FieldsApart m.power m.mode
  power_fan   : FieldsApart m.power m.fan
  sleep_mode  : FieldsApart m.sleep m.mode
  sleep_fan   : FieldsApart m.sleep m.fan
  mode_fan    : FieldsApart m.mode m.fan

/-- No two of the four fields share a bit, and none shares one with another field of a FollowMe (R5). -/
theorem wf_crossFieldsApart {c : Configuration} (h : wellFormedConfig c = true) (hv : c.variant = .heatPump) :
    CrossFieldsApart c.fieldMap ∧
      ∀ f ∈ [c.fieldMap.power, c.fieldMap.sleep, c.fieldMap.mode, c.fieldMap.fan],
        ∀ g ∈ [c.fieldMap.temp, c.fieldMap.fmState, c.fieldMap.fmTemp], FieldsApart f g := by
  obtain ⟨hcross, -, hothers⟩ := List.pairwise_append.mp
    (show ([c.fieldMap.power, c.fieldMap.sleep, c.fieldMap.mode, c.fieldMap.fan] ++
      [c.fieldMap.temp, c.fieldMap.fmState, c.fieldMap.fmTemp]).Pairwise FieldsApart from wf_followMeFields_apart h hv)
  simp only [List.pairwise_cons, List.forall_mem_cons] at hcross
  obtain ⟨⟨hps, hpm, hpf, -⟩, ⟨hsm, hsf, -⟩, ⟨hmf, -⟩, -⟩ := hcross
  exact ⟨⟨hps, hpm, hpf, hsm, hsf, hmf⟩, hothers⟩

namespace State.HoldsMessage

/-- A bit is a code of every field. -/
theorem bit_lt (h : s.HoldsMessage) {f : Field} (hf : f ∈ followMeFields s.cfg.fieldMap) {v : Nat} (hv : v ≤ 1) :
    v < 2 ^ f.width := by
  obtain ⟨hwidth, -, -⟩ := wf_followMeField h.config h.heatPump hf
  have htwo : 2 ^ 1 ≤ 2 ^ f.width := Nat.pow_le_pow_right (by decide) hwidth
  omega

theorem crossValues_setPower (h : s.HoldsMessage) {v : Nat} (hv : v ≤ 1) :
    (s.setField (·.power) v).crossValues = { s.crossValues with power := v } := by
  have hmem : s.cfg.fieldMap.power ∈ followMeFields s.cfg.fieldMap := by simp [followMeFields, commandFields]
  obtain ⟨hapart, -⟩ := wf_crossFieldsApart h.config h.heatPump
  simp only [State.crossValues, h.field_setField hmem (h.bit_lt hmem hv),
    h.field_setField_of_apart hmem hapart.power_sleep, h.field_setField_of_apart hmem hapart.power_mode,
    h.field_setField_of_apart hmem hapart.power_fan]

theorem crossValues_setSleep (h : s.HoldsMessage) {v : Nat} (hv : v ≤ 1) :
    (s.setField (·.sleep) v).crossValues = { s.crossValues with sleep := v } := by
  have hmem : s.cfg.fieldMap.sleep ∈ followMeFields s.cfg.fieldMap := by simp [followMeFields, commandFields]
  obtain ⟨hapart, -⟩ := wf_crossFieldsApart h.config h.heatPump
  simp only [State.crossValues, h.field_setField hmem (h.bit_lt hmem hv),
    h.field_setField_of_apart hmem hapart.power_sleep.symm, h.field_setField_of_apart hmem hapart.sleep_mode,
    h.field_setField_of_apart hmem hapart.sleep_fan]

theorem crossValues_setMode (h : s.HoldsMessage) (m : Mode) :
    (s.setField (·.mode) (modeCodeOf s.cfg m)).crossValues =
      { s.crossValues with mode := modeCodeOf s.cfg m } := by
  have hmem : s.cfg.fieldMap.mode ∈ followMeFields s.cfg.fieldMap := by simp [followMeFields, commandFields]
  obtain ⟨hapart, -⟩ := wf_crossFieldsApart h.config h.heatPump
  simp only [State.crossValues, h.field_setField hmem (wf_modeCode h.config h.heatPump m).1,
    h.field_setField_of_apart hmem hapart.power_mode.symm, h.field_setField_of_apart hmem hapart.sleep_mode.symm,
    h.field_setField_of_apart hmem hapart.mode_fan]

theorem crossValues_setFan (h : s.HoldsMessage) (f : Fan) :
    (s.setField (·.fan) (fanCodeOf s.cfg f)).crossValues = { s.crossValues with fan := fanCodeOf s.cfg f } := by
  have hmem : s.cfg.fieldMap.fan ∈ followMeFields s.cfg.fieldMap := by simp [followMeFields, commandFields]
  obtain ⟨hapart, -⟩ := wf_crossFieldsApart h.config h.heatPump
  simp only [State.crossValues, h.field_setField hmem (wf_fanCode h.config h.heatPump f).1,
    h.field_setField_of_apart hmem hapart.power_fan.symm, h.field_setField_of_apart hmem hapart.sleep_fan.symm,
    h.field_setField_of_apart hmem hapart.mode_fan.symm]

/-- The other fields of a FollowMe are apart from the four. -/
theorem crossValues_setOther (h : s.HoldsMessage) {f : FieldMap → Field}
    (hf : f s.cfg.fieldMap ∈ [s.cfg.fieldMap.temp, s.cfg.fieldMap.fmState, s.cfg.fieldMap.fmTemp]) (v : Nat) :
    (s.setField f v).crossValues = s.crossValues := by
  have hmem : f s.cfg.fieldMap ∈ followMeFields s.cfg.fieldMap := by
    simp only [followMeFields, commandFields, List.cons_append, List.nil_append, List.mem_cons, List.not_mem_nil,
      or_false] at hf ⊢
    tauto
  have hkeeps : ∀ g : FieldMap → Field,
      g s.cfg.fieldMap ∈ [s.cfg.fieldMap.power, s.cfg.fieldMap.sleep, s.cfg.fieldMap.mode, s.cfg.fieldMap.fan] →
      (s.setField f v).field g = s.field g := fun g hg =>
    h.field_setField_of_apart hmem ((wf_crossFieldsApart h.config h.heatPump).2 _ hg _ hf).symm v
  simp only [State.crossValues, hkeeps (·.power) (by simp), hkeeps (·.sleep) (by simp), hkeeps (·.mode) (by simp),
    hkeeps (·.fan) (by simp)]

/-- The writes of SET.MODE together (R86). -/
theorem crossValues_writeMode (h : s.HoldsMessage) (m : Mode) :
    (s.writeMode m).crossValues = { s.crossValues with
      mode  := modeCodeOf s.cfg m
      fan   := if m = .auto ∨ m = .dry then fanCodeOf s.cfg .auto else s.crossValues.fan
      sleep := if m = .fan ∨ m = .dry then 0 else s.crossValues.sleep } := by
  have hmode := h.crossValues_setMode m
  have hmodeHolds := h.setField (·.mode) (modeCodeOf s.cfg m)
  have hfan := hmodeHolds.crossValues_setFan .auto
  have hfanHolds := hmodeHolds.setField (·.fan) (fanCodeOf s.cfg .auto)
  rw [State.setField_cfg, hmode] at hfan
  unfold State.writeMode
  split_ifs
  · rw [hfanHolds.crossValues_setSleep (Nat.zero_le 1), hfan]
  · exact hfan
  · rw [hmodeHolds.crossValues_setSleep (Nat.zero_le 1), hmode]
  · exact hmode

/-- GETMSG rebuilds the derived bytes of the message and none of its fields (R77). -/
theorem crossValues_build (h : s.HoldsMessage) :
    { s with cm := build s.cfg (pay s.cfg s.cm 0) : State }.crossValues = s.crossValues := by
  have hkeeps : ∀ f ∈ followMeFields s.cfg.fieldMap,
      getField (build s.cfg (pay s.cfg s.cm 0)) f = getField s.cm f := fun f hf =>
    getField_build_pay h.payloadBytes_le (wf_followMeField h.config h.heatPump hf).2.2
  simp only [followMeFields, commandFields, List.cons_append, List.forall_mem_cons] at hkeeps
  obtain ⟨hpower, hsleep, hmode, hfan, -⟩ := hkeeps
  simp only [State.crossValues, State.field, hpower, hsleep, hmode, hfan]

end State.HoldsMessage

/-! ### The setters keep the invariants -/

/-- A setter keeps what its write keeps. -/
theorem ok_of_setter {t : State} {ks : List Kind} {write : Option State} (h : s.crossValues.Ok s.cfg)
    (hwrite : ∀ u ∈ write, s.hasKind ks = true → u.crossValues.Ok s.cfg)
    (ht : s.setter ks write = .next t) : t.crossValues.Ok s.cfg := by
  obtain ⟨u, hu, -, hk, heq⟩ | ⟨st, -, heq⟩ := setter_next s ks write <;> rw [heq] at ht <;> cases ht
  · exact hwrite u hu hk
  · exact h

theorem ok_setOther (h : s.HoldsMessage) (hok : s.crossValues.Ok s.cfg) {f : FieldMap → Field}
    (hf : f s.cfg.fieldMap ∈ [s.cfg.fieldMap.temp, s.cfg.fieldMap.fmState, s.cfg.fieldMap.fmTemp]) (v : Nat) :
    (s.setField f v).crossValues.Ok s.cfg := by
  rw [h.crossValues_setOther hf]
  exact hok

/-- SET.POWER: a message that is powered off does not sleep. -/
theorem ok_writePower (h : s.HoldsMessage) (hok : s.crossValues.Ok s.cfg) (v : Bool) :
    (s.writePower v).crossValues.Ok s.cfg := by
  obtain ⟨hfan, hsleep, -⟩ := hok
  unfold State.writePower
  cases v with
  | true =>
    rw [if_pos rfl, h.crossValues_setPower (Nat.le_refl 1)]
    exact ⟨hfan, fun hs => ⟨rfl, (hsleep hs).2⟩, Nat.le_refl 1⟩
  | false =>
    rw [if_neg Bool.false_ne_true, (h.setField _ _).crossValues_setSleep (Nat.zero_le 1),
      h.crossValues_setPower (Nat.zero_le 1)]
    exact ⟨hfan, fun hs => absurd hs Nat.zero_ne_one, Nat.zero_le 1⟩

/-- SET.MODE: a mode that asks for fan Auto brings it, and one without sleep clears it. -/
theorem ok_writeMode (h : s.HoldsMessage) (hok : s.crossValues.Ok s.cfg) (m : Mode) :
    (s.writeMode m).crossValues.Ok s.cfg := by
  obtain ⟨-, hsleep, hpower⟩ := hok
  have hmode : modeOfCode s.cfg (modeCodeOf s.cfg m) = some m := ((wf_modeCode h.config h.heatPump m).2 _).mpr rfl
  have hauto : fanOfCode s.cfg (fanCodeOf s.cfg .auto) = some .auto :=
    ((wf_fanCode h.config h.heatPump .auto).2 _).mpr rfl
  rw [h.crossValues_writeMode]
  refine ⟨fun hm => ?_, fun hs => ?_, hpower⟩
  · simp only [hmode, Option.some.injEq] at hm
    simp only [if_pos hm, hauto]
  · simp only [hmode, ne_eq, Option.some.injEq]
    by_cases hm : m = .fan ∨ m = .dry
    · rw [if_pos hm] at hs
      exact absurd hs Nat.zero_ne_one
    · rw [if_neg hm] at hs
      exact ⟨(hsleep hs).1, not_or.mp hm⟩

/-- SET.FAN: a mode that asks for fan Auto keeps it. -/
theorem ok_writeFan (h : s.HoldsMessage) (hok : s.crossValues.Ok s.cfg) (f : Fan) :
    (s.writeFan f).crossValues.Ok s.cfg := by
  obtain ⟨-, hsleep, hpower⟩ := hok
  unfold State.writeFan
  split_ifs with hm <;> rw [h.crossValues_setFan]
  · exact ⟨fun _ => ((wf_fanCode h.config h.heatPump .auto).2 _).mpr rfl, hsleep, hpower⟩
  · exact ⟨fun hm' => absurd hm' hm, hsleep, hpower⟩

/-- SET.SLEEP: a message that may not sleep is left as it is. -/
theorem ok_writeSleep (h : s.HoldsMessage) (hok : s.crossValues.Ok s.cfg) (v : Bool) :
    (s.writeSleep v).crossValues.Ok s.cfg := by
  unfold State.writeSleep
  split_ifs with hm
  · exact hok
  · obtain ⟨hfan, -, hpower⟩ := hok
    obtain ⟨hzero, hmode⟩ := not_or.mp hm
    rw [h.crossValues_setSleep (show bitCode v ≤ 1 by cases v <;> decide)]
    exact ⟨hfan, fun _ => ⟨Nat.le_antisymm hpower (Nat.pos_of_ne_zero hzero), not_or.mp hmode⟩, hpower⟩

end Sys2Proof.Machine
end

section
/-! CERTIFICATE. The statements about the codec, settled from the lemmas above. -/

namespace Sys2Proof.Machine

/-- Settles O45: each setter's write is judged by what it makes of the four values, and GETMSG leaves them. -/
theorem settersKeepTheCrossFieldInvariants : Obligations.SettersKeepTheCrossFieldInvariants := by
  intro s t i hwf hv hlen _ hoption hpower hcross hw hvalid hvalidS hreset ht
  have h : s.HoldsMessage := ⟨hwf, hv, hlen⟩
  have hok : s.crossValues.Ok s.cfg := (crossValues_ok_iff s).mpr ⟨hcross, hpower⟩
  rw [← crossValues_ok_iff, (exec_effect s i t ht).cfg_eq hreset]
  cases i with
  | isvalid b now => exact absurd rfl (hvalid b now)
  | isvalidS b now => exact absurd rfl (hvalidS b now)
  | reset c => exact absurd rfl (hreset c)
  | getmsg =>
    rw [exec_getmsg hv] at ht
    cases ht
    rw [State.respond_crossValues, h.crossValues_build]
    exact hok
  | setPower v =>
    refine ok_of_setter hok (fun u hu _ => ?_) (exec_setPower s v ▸ ht)
    cases hu
    exact ok_writePower h hok v
  | setMode m =>
    refine ok_of_setter hok (fun u hu _ => ?_) (show execSetMode m s = _ from ht)
    obtain ⟨m, -, rfl⟩ := Option.map_eq_some_iff.mp hu
    exact ok_writeMode h hok m
  | setFan f =>
    refine ok_of_setter hok (fun u hu _ => ?_) (show execSetFan f s = _ from ht)
    obtain ⟨f, -, rfl⟩ := Option.map_eq_some_iff.mp hu
    exact ok_writeFan h hok f
  | setSleep v =>
    refine ok_of_setter hok (fun u hu _ => ?_) (exec_setSleep s v ▸ ht)
    cases hu
    exact ok_writeSleep h hok v
  | setTemp x =>
    refine ok_of_setter hok (fun u hu _ => ?_) (show execSetTemp x s = _ from ht)
    split_ifs at hu <;> cases hu
    · exact hok
    · exact ok_setOther h hok (by simp) _
  | setOption o =>
    refine ok_of_setter hok (fun u _ hk => ?_) (show execSetOption o s = _ from ht)
    rw [hoption] at hk
    cases hk
  | setFmtemp x =>
    refine ok_of_setter hok (fun u hu _ => ?_) (show execSetFmtemp x s = _ from ht)
    split_ifs at hu <;> cases hu
    exact ok_setOther h hok (by simp) _
  | setFmstate st =>
    refine ok_of_setter hok (fun u hu _ => ?_) (show execSetFmstate st s = _ from ht)
    obtain ⟨st, -, rfl⟩ := Option.map_eq_some_iff.mp hu
    exact ok_setOther h hok (by simp) _
  | _ => cases hw

/-- Settles O32, family by family. -/
theorem genericCodecIsIllegal : Obligations.GenericCodecIsIllegal :=
  fun _ _ hi hv => exec_codecOp_of_generic hi hv

/-- Settles O34. -/
theorem getmsgNormalises : Obligations.GetmsgNormalises :=
  fun _ hv => exec_getmsg hv

/-- Settles O36: the kind is decoded in the order of the codes, and the counters are read. -/
theorem codecReadsAnswer : Obligations.CodecReadsAnswer := by
  intro s hv
  exact ⟨fun k hk hfirst => exec_getkind_of_some hv (kindOf_of_first hk hfirst),
    fun h => exec_getkind_of_none hv (kindOf_eq_none h), heatPumpOnly_of_heatPump hv _, heatPumpOnly_of_heatPump hv _⟩

/-- Settles O37: both getters read a bit by its code. -/
theorem bitGettersReadTheirField : Obligations.BitGettersReadTheirField :=
  fun _ hv hk => ⟨bitGetter_answers hv hk, bitGetter_answers hv hk⟩

/-- Settles O38: in a well-formed configuration each code decodes to its value and no other. -/
theorem enumGettersDecodeTheirField : Obligations.EnumGettersDecodeTheirField := by
  intro s hwf hv
  refine ⟨fun hk => ?_, fun hk => enumGetter_answers (fun x => (wf_fmStateCode hwf hv x).2) .fmState hv hk⟩
  obtain ⟨hmode, hnoMode⟩ := enumGetter_answers (fun m => (wf_modeCode hwf hv m).2) .mode hv hk
  obtain ⟨hfan, hnoFan⟩ := enumGetter_answers (fun f => (wf_fanCode hwf hv f).2) .fan hv hk
  exact ⟨hmode, hnoMode, hfan, hnoFan⟩

/-- Settles O39: a code in mode Fan is not looked at, and any other is judged by its range or its set. -/
theorem valueGettersDecodeTheirField : Obligations.ValueGettersDecodeTheirField := by
  intro s hv
  refine ⟨fun hk => ?_, fun hk => tempGetter_answers hv hk _ _ _, fun hk => optionGetter_answers hv hk⟩
  by_cases hfan : modeOfCode s.cfg (getField s.cm s.cfg.fieldMap.mode) = some .fan
  · rw [if_pos hfan]
    exact exec_getTemp_of_fan hv hk hfan
  · rw [if_neg hfan, exec_getTemp_of_not fun h => hfan h.2]
    exact tempGetter_answers hv hk _ _ _

/-- Settles O40: each accessor answers by the kinds that have its field. -/
theorem wrongKindIsInvalidField : Obligations.WrongKindIsInvalidField := by
  intro s v m f x t o hv refusedGet refusedSet
  have hget {α : Type} {ks : List Kind} (hk : s.hasKind ks = false) (f : FieldMap → Field) (value : Nat → Option α)
      (result : α → Result) : s.getter ks f value result = refusedGet := getter_of_wrongKind hv hk f value result
  have hset {ks : List Kind} (hk : s.hasKind ks = false) (write : Option State) : s.setter ks write = refusedSet :=
    setter_of_wrongKind hv hk write
  refine ⟨fun hk => ?_, fun hk => ⟨hget hk _ _ _, hset hk _⟩,
    fun hk => ⟨hget hk _ _ _, hget hk _ _ _, hset hk _, hset hk _⟩⟩
  have htemp : exec .getTemp s = refusedGet := by
    rw [exec_getTemp_of_not fun h => Bool.false_ne_true (hk.symm.trans h.1)]
    exact hget hk _ _ _
  exact ⟨hget hk _ _ _, hget hk _ _ _, hget hk _ _ _, hget hk _ _ _, htemp,
    (exec_setPower s v).trans (hset hk _), hset hk _, hset hk _, (exec_setSleep s v).trans (hset hk _), hset hk _⟩

/-- Settles O41: the writes happen, and a message that may not sleep is left as it is. -/
theorem powerAndSleepSettersWrite : Obligations.PowerAndSleepSettersWrite := by
  intro s v hv hk
  refine ⟨?_, ?_⟩
  · refine (exec_setPower s v).trans ((setter_of_some hv hk _).trans ?_)
    cases v <;> rfl
  · refine (exec_setSleep s v).trans ((setter_of_some hv hk _).trans ?_)
    rw [State.writeSleep, bitCode_eq_toNat]
    simp only [List.mem_cons, List.not_mem_nil, or_false]
    by_cases hnone : s.field (·.power) = 0 ∨ s.mode? = some .fan ∨ s.mode? = some .dry
    · rw [if_pos hnone, if_pos (by exact hnone)]
      rfl
    · rw [if_neg hnone, if_neg (by exact hnone)]
      rfl

/-- Settles O42: each mode has its forced writes, and the fan is the one the mode allows. -/
theorem modeAndFanSettersWrite : Obligations.ModeAndFanSettersWrite := by
  intro s m f hv hk
  refine ⟨?_, ?_⟩
  · refine (setter_of_some hv hk (s.writeMode m)).trans ?_
    cases m <;> rfl
  · refine (setter_of_some hv hk (s.writeFan f)).trans ?_
    rw [State.writeFan]
    simp only [List.mem_cons, List.not_mem_nil, or_false]
    by_cases hauto : s.mode? = some .auto ∨ s.mode? = some .dry
    · rw [if_pos hauto, if_pos (by exact hauto)]
      rfl
    · rw [if_neg hauto, if_neg (by exact hauto)]
      rfl

/-- Settles O43: the mode is tested before the range. -/
theorem temperatureSettersWrite : Obligations.TemperatureSettersWrite := by
  intro s t hv
  refine ⟨fun hk => ?_, fun hk => tempSetter_answers hv hk (·.fmTemp) _ _ _ _⟩
  by_cases hfan : modeOfCode s.cfg (getField s.cm s.cfg.fieldMap.mode) = some .fan
  · rw [if_pos hfan]
    exact exec_setTemp_of_fan hv hk hfan t
  · rw [if_neg hfan, exec_setTemp_of_not hfan]
    exact tempSetter_answers hv hk _ _ _ _ _

/-- Settles O44: an operand that names no value is no write, of whatever kind the message is. -/
theorem optionAndStateSettersWrite : Obligations.OptionAndStateSettersWrite := by
  intro s o x hv
  exact ⟨fun hk => exec_setOption hv hk o, fun hk => setter_of_some hv hk _, setter_of_none hv _,
    setter_of_none hv _, setter_of_none hv _⟩

/-- Settles O33: by the sample that validates, for the buffer as it is given and as it is stamped. -/
theorem isvalidAdoptsAValidBuffer : Obligations.IsvalidAdoptsAValidBuffer := by
  intro b now s hv good adopted judged
  have hgood : ∀ {x k}, good x k ↔ check s.cfg x k = .good := check_eq_good_iff.symm
  have hjudged : ∀ x, judged x (s.validate x now) := by
    intro x
    refine ⟨fun h0 => ?_, fun h0 h1 => ?_, fun h0 h1 => ?_⟩
    · rw [validate_of_some (chooseSample_of_zero (hgood.mp h0)), adoptStatus_eq]
      rfl
    · rw [validate_of_some (chooseSample_of_one (hgood.not.mp h0) (hgood.mp h1)), adoptStatus_eq]
      rfl
    · rw [validate_of_none (chooseSample_of_none (hgood.not.mp h0) (hgood.not.mp h1)),
        checkStatus_of_not_good (hgood.not.mp h0)]
      rfl
  rw [exec_isvalid hv, exec_isvalidS hv]
  exact ⟨hjudged b, hjudged _⟩

/-- Settles O35: what ISVALID adopts is built from a payload with the marker. -/
theorem normalisedMessageValidatesAgain : Obligations.NormalisedMessageValidatesAgain := by
  intro s u m t t' st hwf hv hm hexec hresponse hst
  obtain ⟨v, hchoose, rfl, rfl⟩ := adopted_of_exec_isvalid hv hexec hresponse hst
  obtain ⟨hsample, hmarker⟩ := chooseSample_eq_some hchoose
  exact validates_again_of_built (s := (s.adopt _ v t).respond _ _) hv (length_plainPayload hwf hv hm hsample) hmarker
    rfl t'

/-- Settles O46. -/
theorem optcmdBuildsAnOption : Obligations.OptcmdBuildsAnOption := by
  intro s o hv
  rw [exec_optcmd hv]
  split_ifs <;> rfl

/-- Settles O47: FMCMD by the sample of the snapshot that validates, and the payload by the writes it is made of. -/
theorem fmcmdMutatesASnapshot : Obligations.FmcmdMutatesASnapshot := by
  intro s prev x t hwf hv hprev answer
  have hfailed : ∀ {e}, check s.cfg prev 0 = e → e ≠ .good → check s.cfg prev 1 ≠ .good → ∀ st,
      exec (.fmcmd prev st t) s = answer ⟨checkStatus e, .empty⟩ := by
    rintro e rfl h0 h1 st
    exact exec_fmcmd_of_none t hv (chooseSample_of_none h0 h1) st
  refine ⟨fun h0 => hfailed h0 (by decide), fun h0 => hfailed h0 (by decide), fun p hp => ?_⟩
  obtain ⟨v, hchoose, hplain⟩ : ∃ v, chooseSample s.cfg prev = some v ∧ plainPayload s.cfg prev v = p := by
    obtain ⟨h0, rfl⟩ | ⟨h0, h1, rfl⟩ := hp
    · exact ⟨0, chooseSample_of_zero h0, rfl⟩
    · exact ⟨1, chooseSample_of_one h0 h1, rfl⟩
  refine ⟨exec_fmcmd_of_noState t hv hchoose, fun hno => ?_, fun hkind hlo hhi => ?_⟩
  · refine exec_fmcmd_of_refused t hv hchoose ?_ (some x)
    rw [hplain]
    rintro ⟨hkind, hlo, hhi⟩
    obtain h | h | h := hno
    · exact h hkind
    · omega
    · omega
  · refine ⟨followMePayload s.cfg p x t, ?_, ?_⟩
    · rw [exec_fmcmd_of_accepted t hv hchoose (by rw [hplain]; exact ⟨hkind, hlo, hhi⟩), hplain]
      rfl
    · have hread := getField_followMePayload hwf hv p x t hlo hhi
      have htemp : ((tempCode s.cfg.fmTempOffset t : Nat) : Int) = t - s.cfg.fmTempOffset := by
        obtain ⟨-, hmin, -⟩ := wf_temperatures hwf hv
        exact Int.toNat_of_nonneg (by omega)
      simp only [followMeWrites, List.forall_mem_append, List.forall_mem_map, List.forall_mem_cons] at hread
      obtain ⟨hcarried, hstate, hfmTemp, -⟩ := hread
      exact ⟨length_followMePayload hwf hv p x t, headD_followMePayload hwf hv p x t, hcarried, hstate,
        by rw [hfmTemp, htemp], fun g hg hout => getBitG_followMePayload hwf hv p x t hg hout⟩

/-- Settles O48: the payloads have the marker and the kind in their instruction byte. -/
theorem factoryOutputsAreValid : Obligations.FactoryOutputsAreValid := by
  intro s t b hwf hv hfits hresponse
  refine ⟨fun o ht => ?_, fun prev x k ht => ?_⟩
  · rw [exec_optcmd hv] at ht
    split_ifs at ht <;> cases ht <;> obtain ⟨hst, hb⟩ := respond_responses_inj hresponse
    · cases hb
      exact optionMessage_is_valid hwf hv hfits o
    · cases hst
  · obtain ⟨v, st, hchoose, rfl⟩ := accepted_of_exec_fmcmd hv ht hresponse
    exact followMeMessage_is_valid hwf hv hfits (chooseSample_eq_some hchoose).2 st k

end Sys2Proof.Machine
end

section
/-! SUPPORT. Display texts (spec/44_display.md R109, R111): the text of a segment code, and the value of a text, place by
place, with its bound. -/

namespace Sys2Proof.Machine

/-! ### The text of a code -/

/-- The first entry of the table for a code is its text, and a code without one is unmapped (R109). -/
theorem seg_eq (c : Configuration) (code : Byte) :
    seg c code = ((c.segTable.find? fun e => e.1 == code).map Prod.snd).getD [ch '?'] := by
  unfold seg
  cases c.segTable.find? fun e => e.1 == code with
  | none => rfl
  | some e => rfl

/-! ### The value of a text -/

/-- `Hex` on character codes (R111). -/
theorem hexValue_eq (x : Ch) :
    hexValue x = if 48 ≤ x.toNat ∧ x.toNat ≤ 57 then x.toNat - 48
      else if 65 ≤ x.toNat ∧ x.toNat ≤ 70 then x.toNat - 55 else 0 := by
  have hcodes : (ch '0').toNat = 48 ∧ (ch '9').toNat = 57 ∧ (ch 'A').toNat = 65 ∧ (ch 'F').toNat = 70 := by decide
  obtain ⟨h0, h9, hA, hF⟩ := hcodes
  rw [hexValue, h0, h9, hA, hF]
  split_ifs <;> omega

theorem hexValue_le (x : Ch) : hexValue x ≤ 15 := by
  rw [hexValue_eq]
  split_ifs <;> omega

theorem digitsValue_concat (t : List Ch) (x : Ch) : digitsValue (t ++ [x]) = digitsValue t * 10 + hexValue x := by
  simp [digitsValue]

/-- The sum of the characters' values, each at the power of ten of its place. -/
def placeValue (t : List Ch) : Nat :=
  ((List.range t.length).map fun k => hexValue (t.getD k 0) * 10 ^ (t.length - 1 - k)).sum

/-- A character behind a text moves each of the text's places up by one. -/
theorem placeValue_concat (t : List Ch) (x : Ch) : placeValue (t ++ [x]) = placeValue t * 10 + hexValue x := by
  have hlength : (t ++ [x]).length = t.length + 1 := List.length_append
  have hplaces : ∀ k ∈ List.range t.length, hexValue ((t ++ [x]).getD k 0) * 10 ^ (t.length - k) =
      hexValue (t.getD k 0) * 10 ^ (t.length - 1 - k) * 10 := by
    intro k hk
    have hk : k < t.length := List.mem_range.mp hk
    rw [List.getD_append _ _ _ _ hk, show t.length - k = t.length - 1 - k + 1 by omega, Nat.pow_succ, Nat.mul_assoc]
  have hlast : hexValue ((t ++ [x]).getD t.length 0) * 10 ^ (t.length - t.length) = hexValue x := by simp
  rw [placeValue, hlength, Nat.add_sub_cancel, List.range_succ, List.map_append, List.sum_append,
    List.map_congr_left hplaces, List.sum_map_mul_right, List.map_singleton, List.sum_singleton, hlast, placeValue]

/-- The model reads a text from its front; what it has then is the sum by places. -/
theorem digitsValue_eq_placeValue (t : List Ch) : digitsValue t = placeValue t := by
  induction t using List.reverseRecOn with
  | nil => rfl
  | append_singleton t x ih => rw [digitsValue_concat, placeValue_concat, ih]

/-- No text is worth more than one of the same length with every character worth 15. -/
theorem digitsValue_bound (t : List Ch) : 3 * digitsValue t + 5 ≤ 5 * 10 ^ t.length := by
  induction t using List.reverseRecOn with
  | nil => decide
  | append_singleton t x ih =>
    have hx := hexValue_le x
    rw [digitsValue_concat, List.length_append, List.length_singleton, Nat.pow_succ]
    omega

theorem digitsValue_le_of_length_le_four {t : List Ch} (h : t.length ≤ 4) : digitsValue t ≤ 16665 := by
  have hbound := digitsValue_bound t
  have hpow : 10 ^ t.length ≤ 10 ^ 4 := Nat.pow_le_pow_right (by decide) h
  omega

theorem alphaToInt_eq (t : List Ch) :
    alphaToInt t = if t.head? = some (ch '-') then -(placeValue t.tail : Int) else placeValue t := by
  cases t with
  | nil => rfl
  | cons x rest => simp only [alphaToInt, digitsValue_eq_placeValue, List.head?_cons, Option.some.injEq, List.tail_cons]

theorem natAbs_alphaToInt_le {t : List Ch} (h : t.length ≤ 4) : (alphaToInt t).natAbs ≤ 16665 := by
  have hall : digitsValue t ≤ 16665 := digitsValue_le_of_length_le_four h
  have htail : digitsValue t.tail ≤ 16665 := digitsValue_le_of_length_le_four (by rw [List.length_tail]; omega)
  rw [alphaToInt_eq, ← digitsValue_eq_placeValue, ← digitsValue_eq_placeValue]
  split_ifs <;> omega

end Sys2Proof.Machine
end

section
/-! SUPPORT. The display decoder's events that change nothing, and the clock edge that completes a byte
(spec/44_display.md R104, R105; spec/60_exceptions.md R133). -/

namespace Sys2Proof.Machine

variable {s : State}

theorem exec_dstb_of_detached (hoff : s.dListening = false) : exec .dstb s = .next s := by
  simp [exec, execDstb, hoff]

/-- A clock edge does nothing while the decoder is detached or the frame waits for the strobe. -/
theorem exec_dclk_of_ignored (h : s.dListening = false ∨ s.dBytePos = 3) (data : Bool) :
    exec (.dclk data) s = .next s := by
  obtain hoff | hdone := h
  · simp [exec, execDclk, hoff]
  · simp [exec, execDclk, hdone]

/-- The bit that completes byte `p`. -/
theorem exec_dclk_of_byte (hon : s.dListening = true) (hbit : s.dBitPos = 7) {p : Fin 4} (hbyte : s.dBytePos = p)
    (hp : p ≠ 3) (data : Bool) : exec (.dclk data) s = .next { s with
      dRaw := s.dRaw.put p (s.sample data)
      dByte := 0
      dBitPos := 0
      dBytePos := p + 1
      dReady := if p + 1 = 3 then true else s.dReady } := by
  subst hbyte
  exact exec_dclk_of_last hon hp hbit data

end Sys2Proof.Machine
end

section
/-! SUPPORT. The scanner's ticks in AwaitingLabel and AwaitingValue (spec/45_scanner.md R116), and the emission of an
option as OPTCMD and SEND. -/

namespace Sys2Proof.Machine

variable {s t : State} {now : Word}

/-! ### Emit -/

theorem emitOption_of_busy (hbusy : s.txActive = true) (o : Byte) : s.emitOption o = none := by
  rw [State.emitOption, if_pos hbusy]

/-- A free transmitter starts the message of an option of `OPTION_SET`. -/
theorem emitOption_of_free (hfree : s.txActive = false) {o : Byte} (ho : o ∈ s.cfg.optionSet) :
    s.emitOption o = some (s.startTransmission (build s.cfg (optionPayload s.cfg o))) := by
  rw [State.emitOption, optionMessage, if_neg (by simp [hfree]), if_pos (List.contains_iff_mem.mpr ho)]
  rfl

/-- What a free transmitter makes of an option is what OPTCMD and SEND make of it. -/
theorem emits_startTransmission (hv : s.isHeatPump) (hfree : s.txActive = false) {o : Byte}
    (ho : o ∈ s.cfg.optionSet) : s.emits o (s.startTransmission (build s.cfg (optionPayload s.cfg o))) :=
  ⟨_, _, _, by rw [exec_optcmd hv, if_pos ho], rfl, exec_send_of_free hfree _, rfl, rfl⟩

/-! ### The tests of a tick -/

theorem showsLabel_iff (s : State) : s.showsLabel = true ↔ s.displayText = s.cfg.labels.getD s.scanIndex [] :=
  beq_iff_eq

theorem isBlank_iff (text : List Ch) : isBlank text = true ↔ ∀ x ∈ text, x = ch ' ' := by
  simp [isBlank]

/-- What keeps a tick from capturing the value that is shown: a blank text, the debounce, a busy transmitter. -/
def State.HeldBack (s : State) (now : Word) : Prop :=
  (∀ x ∈ s.displayText, x = ch ' ') ∨ (now - s.labelSeenAt).toNat ≤ s.cfg.debounce.toNat ∨ s.txActive = true

/-- The first two of these are what a tick tests before it emits. -/
theorem heldBack_iff (s : State) (now : Word) : s.HeldBack now ↔
    (isBlank s.displayText || decide (now - s.labelSeenAt ≤ s.cfg.debounce)) = true ∨ s.txActive = true := by
  rw [Bool.or_eq_true, isBlank_iff, decide_eq_true_iff, BitVec.le_def, or_assoc, State.HeldBack]

/-! ### AwaitingLabel -/

theorem exec_scantick_of_awaitingLabel (hv : s.isHeatPump) (hstate : s.scanState = .awaitingLabel) (now : Word) :
    exec (.scantick now) s = s.tickLabel now := by
  rw [show exec (.scantick now) s = execScantick now s from rfl, execScantick, heatPumpOnly_of_heatPump hv, hstate]

theorem tickLabel_of_label (h : s.displayText = s.cfg.labels.getD s.scanIndex []) (now : Word) : s.tickLabel now =
    .next ({ s with labelSeenAt := now, scanState := .awaitingValue }.respond .ok (.scanOut false false false)) :=
  if_pos ((showsLabel_iff s).mpr h)

theorem tickLabel_of_other (h : s.displayText ≠ s.cfg.labels.getD s.scanIndex []) (now : Word) :
    s.tickLabel now = .next (s.respond .ok (.scanOut false false false)) :=
  if_neg (mt (showsLabel_iff s).mp h)

/-! ### AwaitingValue -/

theorem exec_scantick_of_awaitingValue (hv : s.isHeatPump) (hstate : s.scanState = .awaitingValue) (now : Word) :
    exec (.scantick now) s = s.tickValue now := by
  rw [show exec (.scantick now) s = execScantick now s from rfl, execScantick, heatPumpOnly_of_heatPump hv, hstate]

theorem tickValue_of_label (h : s.displayText = s.cfg.labels.getD s.scanIndex []) (now : Word) : s.tickValue now =
    .next ({ s with labelSeenAt := now }.respond .ok (.scanOut false false false)) :=
  if_pos ((showsLabel_iff s).mpr h)

theorem tickValue_of_held (hother : s.displayText ≠ s.cfg.labels.getD s.scanIndex []) (hheld : s.HeldBack now) :
    s.tickValue now = .next (s.respond .ok (.scanOut false false false)) := by
  rw [State.tickValue, if_neg (mt (showsLabel_iff s).mp hother)]
  obtain htext | hbusy := (heldBack_iff s now).mp hheld
  · rw [if_pos htext, complete_eq]
  · simp only [emitOption_of_busy hbusy, complete_eq, ite_self]

/-- A value held long enough is captured, the advance option sent before. -/
theorem tickValue_of_free (hother : s.displayText ≠ s.cfg.labels.getD s.scanIndex []) (hheld : ¬ s.HeldBack now)
    (hemit : s.emitOption s.cfg.optAdvance = some t) : s.tickValue now = t.capture now := by
  obtain ⟨htext, -⟩ := not_or.mp (mt (heldBack_iff s now).mpr hheld)
  simp only [State.tickValue, if_neg (mt (showsLabel_iff s).mp hother), if_neg htext, hemit]

/-! ### The capture -/

theorem capture_of_more (h : s.scanIndex + 1 < 27) (now : Word) : s.capture now = .next ({ s with
    props := s.props.set s.scanIndex (BitVec.ofInt 32 (alphaToInt s.displayText))
    scanIndex := s.scanIndex + 1
    scanState := .awaitingLabel }.respond .ok (.scanOut true true false)) :=
  if_neg (Nat.not_le.mpr h)

/-- The last capture ends the pass. -/
theorem capture_of_last (h : 27 ≤ s.scanIndex + 1) (now : Word) : s.capture now = .next ({ s with
    props := s.props.set s.scanIndex (BitVec.ofInt 32 (alphaToInt s.displayText))
    scanIndex := s.scanIndex + 1
    scanState := .idle
    passEndTime := now
    passDone := true }.respond .ok (.scanOut true true true)) :=
  if_pos h

end Sys2Proof.Machine
end

section
/-! CERTIFICATE. The statements about the display and the scanner's capture, settled from the lemmas above. -/

namespace Sys2Proof.Machine

/-- Settles O52: not ready is told by HASUPD's idle phase; a ready frame by the judgement, in the state with dReady
cleared. -/
theorem hasupdJudgesTheFrame : Obligations.HasupdJudgesTheFrame := by
  intro s hidle hatomic f
  refine ⟨exec_hasupd_of_notReady hidle, fun hready hnew h0 h1 => ?_, fun hready hold => ?_⟩
  · rw [exec_hasupd_of_atomic hidle hatomic hready]
    exact judgeFrame_of_adopted hnew h0 h1
  · rw [exec_hasupd_of_atomic hidle hatomic hready]
    exact judgeFrame_of_ignored hold

/-- Settles O55: the digits read from the front are the sum by places, which a text of equal length bounds. -/
theorem alphaToIntWeighsByTen : Obligations.AlphaToIntWeighsByTen := by
  intro text s hex value result
  have hvalue : value = placeValue := by
    funext t
    simp only [value, hex, placeValue, hexValue_eq]
  have hresult : result = alphaToInt text := by
    rw [alphaToInt_eq, ← hvalue]
  rw [hresult]
  exact ⟨rfl, natAbs_alphaToInt_le⟩

/-- Settles O58: a tick per state, by what is shown; the advance option is one the configuration has, so a free
transmitter sends it. -/
theorem scantickCapturesValues : Obligations.ScantickCapturesValues := by
  intro s now hwf hv text label held quiet
  refine ⟨fun hstate hother => ?_, fun hstate hlabel => ?_, fun hstate hlabel => ?_, fun hstate hother hheld => ?_,
    fun hstate hother hheld => ?_⟩
  · rw [exec_scantick_of_awaitingLabel hv hstate]
    exact tickLabel_of_other hother now
  · rw [exec_scantick_of_awaitingLabel hv hstate]
    exact tickLabel_of_label hlabel now
  · rw [exec_scantick_of_awaitingValue hv hstate]
    exact tickValue_of_label hlabel now
  · rw [exec_scantick_of_awaitingValue hv hstate]
    exact tickValue_of_held hother hheld
  · have hfree : s.txActive = false := Bool.eq_false_iff.mpr fun hbusy => hheld (.inr (.inr hbusy))
    obtain ⟨-, -, hadvance⟩ := wf_options hwf hv
    rw [exec_scantick_of_awaitingValue hv hstate, tickValue_of_free hother hheld (emitOption_of_free hfree hadvance)]
    exact ⟨_, emits_startTransmission hv hfree hadvance,
      fun hmore => capture_of_more (s := s.startTransmission _) hmore now,
      fun hlast => capture_of_last (s := s.startTransmission _) hlast now⟩

/-- Settles O49: an ignored edge, an edge inside a byte, the last edge of each byte, and the strobe. -/
theorem clockSamplesAndStrobeRealigns : Obligations.ClockSamplesAndStrobeRealigns := by
  intro s data byte
  refine ⟨fun h => exec_dclk_of_ignored h data, fun hon hbyte hbit => ?_, fun hon hbit => ⟨fun h => ?_, fun h => ?_,
    fun h => ?_⟩, exec_dstb_of_listening, exec_dstb_of_detached⟩
  · exact exec_dclk_of_lt hon hbyte (by omega) data
  · exact exec_dclk_of_byte hon hbit h (by decide) data
  · exact exec_dclk_of_byte hon hbit h (by decide) data
  · exact exec_dclk_of_byte hon hbit h (by decide) data

/-- Settles O51: both meanings are the record updates the statement writes. -/
theorem displayAttachAndDetach : Obligations.DisplayAttachAndDetach := fun _ => ⟨rfl, rfl⟩

/-- Settles O54: each digit by the first entry of the segment table for its code. -/
theorem asciiRendersTheStableFrame : Obligations.AsciiRendersTheStableFrame := by
  intro s text
  have htext : seg s.cfg = text := funext (seg_eq s.cfg)
  rw [← htext]
  rfl

end Sys2Proof.Machine
end

section
/-! SUPPORT. SCANSTART, and the scanner's ticks in Idle and Stepping (spec/45_scanner.md R114 to R116): the cool-down,
the periodic entry, the head of the command queue. -/

namespace Sys2Proof.Machine

variable {s : State} {now : Word}

/-! ### The cool-down and the interval -/

theorem coolingDown_iff (s : State) (now : Word) : s.coolingDown now = true ↔
    s.passDone = true ∧ (now - s.passEndTime).toNat < s.cfg.cooldown.toNat := by
  rw [State.coolingDown, Bool.and_eq_true, decide_eq_true_iff, BitVec.lt_def]

theorem not_coolingDown_iff (s : State) (now : Word) : ¬ s.coolingDown now = true ↔
    s.passDone = false ∨ s.cfg.cooldown.toNat ≤ (now - s.passEndTime).toNat := by
  rw [coolingDown_iff, not_and_or, Bool.not_eq_true, not_lt]

theorem intervalElapsed_iff (s : State) (now : Word) : s.intervalElapsed now = true ↔
    ∃ d, s.cfg.scanInterval = some d ∧ d.toNat ≤ (now - s.passEndTime).toNat := by
  unfold State.intervalElapsed
  cases s.cfg.scanInterval with
  | none => simp
  | some d => simp [BitVec.le_def]

/-! ### SCANSTART -/

theorem exec_scanstart_of_busy (hv : s.isHeatPump) (h : s.scanState ≠ .idle ∨ s.coolingDown now = true) :
    exec (.scanstart now) s = .next (s.respond .busy .empty) := by
  rw [show exec (.scanstart now) s = execScanstart now s from rfl, execScanstart, heatPumpOnly_of_heatPump hv, if_pos h,
    fail_eq]

theorem exec_scanstart_of_ready (hv : s.isHeatPump) (hidle : s.scanState = .idle) (hcool : ¬ s.coolingDown now = true) :
    exec (.scanstart now) s = .next (s.enterPass.respond .ok .empty) := by
  rw [show exec (.scanstart now) s = execScanstart now s from rfl, execScanstart, heatPumpOnly_of_heatPump hv,
    if_neg (not_or.mpr ⟨not_not.mpr hidle, hcool⟩), complete_eq]

/-! ### A tick in Idle -/

/-- The periodic entry asks for the interval and for the end of the cool-down. -/
theorem entersPass_iff (s : State) (now : Word) : (s.intervalElapsed now && !s.coolingDown now) = true ↔
    (∃ d, s.cfg.scanInterval = some d ∧ d.toNat ≤ (now - s.passEndTime).toNat) ∧
      (s.passDone = false ∨ s.cfg.cooldown.toNat ≤ (now - s.passEndTime).toNat) := by
  rw [Bool.and_eq_true, Bool.not_eq_true', ← Bool.not_eq_true, intervalElapsed_iff, not_coolingDown_iff]

theorem exec_scantick_of_idle (hv : s.isHeatPump) (hstate : s.scanState = .idle) (now : Word) :
    exec (.scantick now) s = s.tickIdle now := by
  rw [show exec (.scantick now) s = execScantick now s from rfl, execScantick, heatPumpOnly_of_heatPump hv, hstate]

/-! ### A tick in Stepping -/

theorem exec_scantick_of_stepping (hv : s.isHeatPump) (hstate : s.scanState = .stepping) (now : Word) :
    exec (.scantick now) s = s.tickStepping := by
  rw [show exec (.scantick now) s = execScantick now s from rfl, execScantick, heatPumpOnly_of_heatPump hv, hstate]

/-- Either option the queue holds is one a well-formed heat-pump configuration has (R5). -/
theorem queuedOption_mem (hwf : wellFormedConfig s.cfg = true) (hv : s.isHeatPump) :
    s.queuedOption ∈ s.cfg.optionSet := by
  obtain ⟨-, hselect, hadvance⟩ := wf_options hwf hv
  unfold State.queuedOption
  split
  · exact hselect
  · exact hadvance

theorem tickStepping_of_busy (hbusy : s.txActive = true) :
    s.tickStepping = .next (s.respond .ok (.scanOut false false false)) := by
  simp only [State.tickStepping, emitOption_of_busy hbusy, complete_eq]

/-- The head of the queue is sent, and the last one ends the stepping. -/
theorem tickStepping_of_emitted {t : State} (hemit : s.emitOption s.queuedOption = some t) :
    s.tickStepping = .next ({ t with
      scanRemaining := s.scanRemaining - 1
      scanState := if s.scanRemaining - 1 = 0 then .awaitingLabel else .stepping }.respond .ok
        (.scanOut true false false)) := by
  simp only [State.tickStepping, hemit, complete_eq]

end Sys2Proof.Machine
end

section
/-! CERTIFICATE. The statements about the scanner's entry, its command queue and its catalogue, settled from the lemmas
above. -/

namespace Sys2Proof.Machine

/-- Settles O57: a tick in Idle by the test of the periodic entry, a tick in Stepping by the transmitter; the queued
option is one the configuration has, so a free transmitter sends it. -/
theorem scantickStepsTheQueue : Obligations.ScantickStepsTheQueue := by
  intro s now hwf hv since due quiet
  refine ⟨fun hstate hdue => ?_, fun hstate hnot => ?_, fun hstate hbusy => ?_, fun hstate hfree => ?_⟩
  · rw [exec_scantick_of_idle hv hstate]
    exact if_pos ((entersPass_iff s now).mpr hdue)
  · rw [exec_scantick_of_idle hv hstate]
    exact if_neg (mt (entersPass_iff s now).mp hnot)
  · rw [exec_scantick_of_stepping hv hstate]
    exact tickStepping_of_busy hbusy
  · have hqueued := queuedOption_mem hwf hv
    rw [exec_scantick_of_stepping hv hstate]
    exact ⟨_, emits_startTransmission hv hfree hqueued, tickStepping_of_emitted (emitOption_of_free hfree hqueued)⟩

/-- Settles O56: BUSY or the entry, by the scanner's state and the cool-down. -/
theorem scanstartEntersAPass : Obligations.ScanstartEntersAPass := fun s now hv =>
  ⟨fun hbusy => exec_scanstart_of_busy hv (hbusy.imp_right (coolingDown_iff s now).mpr),
    fun hidle hready => exec_scanstart_of_ready hv hidle ((not_coolingDown_iff s now).mpr hready)⟩

/-- Settles O59: the three operations are what they are under the heat-pump variant, and ILLEGAL_OP under the generic. -/
theorem propsnapReadsTheCatalogue : Obligations.PropsnapReadsTheCatalogue := fun _ _ =>
  ⟨fun hv => heatPumpOnly_of_heatPump hv _, fun hv =>
    ⟨heatPumpOnly_of_generic hv _, heatPumpOnly_of_generic hv _, heatPumpOnly_of_generic hv _⟩⟩

end Sys2Proof.Machine
end

section
/-! SUPPORT. The reference record REF_HP, with which the machine is constructed (spec/00_scope.md R5, R6), and what NOP
answers (spec/46_system_ops.md R119). -/

namespace Sys2Proof.Machine

/-! ### The reference record: closed facts, checked by evaluating each constraint -/

theorem wellFormedConfig_refHp : wellFormedConfig .refHp = true := by decide

theorem encodable_refHp : Configuration.refHp.encodable = true := by decide

/-! ### The answer of NOP -/

theorem exec_nop (s : State) : exec .nop s = .next (s.respond .ok .empty) :=
  complete_eq s .empty

end Sys2Proof.Machine
end

section
/-! CERTIFICATE. The statements about the system operations, settled from the lemmas above. -/

namespace Sys2Proof.Machine

/-- Settles O8: the state after reset is the construction with REF_HP, and a construction with a record that is
well-formed and that the port can carry meets the invariant. -/
theorem resetMeetsTheInvariant : Obligations.ResetMeetsTheInvariant :=
  inv_construct wellFormedConfig_refHp encodable_refHp

/-- Settles O13: NOP completes with no result, and a response is all that a completion appends. -/
theorem nopAnswersOk : Obligations.NopAnswersOk :=
  exec_nop

end Sys2Proof.Machine
end

section
/-! CERTIFICATE. The statement about the events whose source is disabled (spec/60_exceptions.md R129, R133), with the
one of their lemmas that the sections above do not hold: what TXCMP does while the timer is disabled. -/

namespace Sys2Proof.Machine

theorem exec_txcmp_of_inactive {s : State} (hoff : s.txActive = false) : exec .txcmp s = .next s := by
  simp [exec, execTxcmp, hoff]

/-- Settles O12, event by event: each is dropped when the flag of its source is clear. -/
theorem disabledEventsChangeNothing : Obligations.DisabledEventsChangeNothing := fun _ now data =>
  ⟨fun hdetached => exec_rxedge_of_dropped (.inl hdetached) now,
    exec_txcmp_of_inactive,
    fun hdetached => exec_dclk_of_ignored (.inl hdetached) data,
    exec_dstb_of_detached⟩

end Sys2Proof.Machine
end
